-- ==== Sys2Proof/Word.lean ====
section
/-! DEFINITION. The bit-vector types of the block: what the spec counts as bits, at the spec's widths (spec/00_scope.md R7, R8). -/

namespace Sys2Proof

/-- A byte: a general register, a timer, a memory cell (R20, R30, R51). -/
abbrev Byte := BitVec 8

/-- A 16-bit word: an instruction word, pc, the index register, a stack entry (R23, R25, R27, R70). -/
abbrev Word := BitVec 16

/-- A 4-bit field: a register index X or Y, the nibble N, a key number (R71, R216). -/
abbrev Nibble := BitVec 4

/-- The 12-bit address field NNN (R71). -/
abbrev Addr12 := BitVec 12

end Sys2Proof
end

