-- ==== Sys2Proof/Syntax.lean ====
section
/-! DEFINITION. The instructions: one constructor per row of spec/opcode_table.json (spec/30_encoding.md R72), with the fields its row names (R71, R79). -/

namespace Sys2Proof

/-- The 34 instructions of R72 and Invalid (row 35). A constructor holds exactly the fields its row's
pattern leaves open; the shifts keep the Y field their rules ignore (R78). -/
inductive Instr where
  /-- 00E0, clear screen (R190). -/
  | cls
  /-- 00EE, return (R120). -/
  | ret
  /-- 1NNN, jump (R121). -/
  | jp (nnn : Addr12)
  /-- 2NNN, call (R122). -/
  | call (nnn : Addr12)
  /-- 3XNN, skip if VX equals NN (R123). -/
  | seImm (x : Nibble) (nn : Byte)
  /-- 4XNN, skip if VX does not equal NN (R124). -/
  | sneImm (x : Nibble) (nn : Byte)
  /-- 5XY0, skip if VX equals VY (R125). -/
  | seReg (x y : Nibble)
  /-- 6XNN, load immediate (R142). -/
  | ldImm (x : Nibble) (nn : Byte)
  /-- 7XNN, add immediate (R143). -/
  | addImm (x : Nibble) (nn : Byte)
  /-- 8XY0, copy (R144). -/
  | ldReg (x y : Nibble)
  /-- 8XY1, bitwise OR (R145). -/
  | orReg (x y : Nibble)
  /-- 8XY2, bitwise AND (R146). -/
  | andReg (x y : Nibble)
  /-- 8XY3, bitwise XOR (R147). -/
  | xorReg (x y : Nibble)
  /-- 8XY4, add with carry (R148). -/
  | addReg (x y : Nibble)
  /-- 8XY5, subtract VY from VX (R149). -/
  | subReg (x y : Nibble)
  /-- 8XY6, shift right (R150). -/
  | shr (x y : Nibble)
  /-- 8XY7, subtract VX from VY (R151). -/
  | subn (x y : Nibble)
  /-- 8XYE, shift left (R152). -/
  | shl (x y : Nibble)
  /-- 9XY0, skip if VX does not equal VY (R126). -/
  | sneReg (x y : Nibble)
  /-- ANNN, load index (R170). -/
  | ldI (nnn : Addr12)
  /-- BNNN, jump to V0 + NNN (R127). -/
  | jpV0 (nnn : Addr12)
  /-- CXNN, random AND immediate (R153). -/
  | rnd (x : Nibble) (nn : Byte)
  /-- DXYN, draw sprite (R191). -/
  | drw (x y n : Nibble)
  /-- EX9E, skip if key VX is pressed (R213). -/
  | skp (x : Nibble)
  /-- EXA1, skip if key VX is not pressed (R214). -/
  | sknp (x : Nibble)
  /-- FX07, read the delay timer (R210). -/
  | ldVxDT (x : Nibble)
  /-- FX0A, wait for a key (R215). -/
  | ldVxK (x : Nibble)
  /-- FX15, set the delay timer (R211). -/
  | ldDT (x : Nibble)
  /-- FX18, set the sound timer (R212). -/
  | ldST (x : Nibble)
  /-- FX1E, add VX to the index register (R171). -/
  | addI (x : Nibble)
  /-- FX29, font glyph address (R173). -/
  | ldF (x : Nibble)
  /-- FX33, BCD store (R174). -/
  | ldB (x : Nibble)
  /-- FX55, register dump (R175). -/
  | storeRegs (x : Nibble)
  /-- FX65, register load (R176). -/
  | loadRegs (x : Nibble)
  /-- Any other word: Invalid(raw_opcode) (R107, R230). -/
  | invalid (op : Word)
deriving DecidableEq, Repr

end Sys2Proof
end

