-- ==== Sys2Proof/Decode.lean ====
section
/-! DEFINITION. The decoder (spec/30_encoding.md R71 to R78), total on any bytes, and the encoder written from the same table. -/

namespace Sys2Proof

/-- T = op[15:12], the primary opcode (R71). -/
def fieldT (op : Word) : Nibble := op.extractLsb' 12 4
/-- X = op[11:8] (R71). -/
def fieldX (op : Word) : Nibble := op.extractLsb' 8 4
/-- Y = op[7:4] (R71). -/
def fieldY (op : Word) : Nibble := op.extractLsb' 4 4
/-- N = op[3:0] (R71). -/
def fieldN (op : Word) : Nibble := op.extractLsb' 0 4
/-- NN = op[7:0] (R71). -/
def fieldNN (op : Word) : Byte := op.extractLsb' 0 8
/-- NNN = op[11:0] (R71). -/
def fieldNNN (op : Word) : Addr12 := op.extractLsb' 0 12

/-- Top nibble 0: the whole word is compared (R73, R77). -/
def decode0 (op : Word) : Instr :=
  if op = 0x00E0 then .cls else if op = 0x00EE then .ret else .invalid op

/-- Top nibble 8: the low nibble selects the row (R73). -/
def decode8 (op : Word) : Instr :=
  let x := fieldX op
  let y := fieldY op
  let n := fieldN op
  if n = 0x0 then .ldReg x y
  else if n = 0x1 then .orReg x y
  else if n = 0x2 then .andReg x y
  else if n = 0x3 then .xorReg x y
  else if n = 0x4 then .addReg x y
  else if n = 0x5 then .subReg x y
  else if n = 0x6 then .shr x y
  else if n = 0x7 then .subn x y
  else if n = 0xE then .shl x y
  else .invalid op

/-- Top nibble E: the low byte selects the row (R73). -/
def decodeE (op : Word) : Instr :=
  let x := fieldX op
  let nn := fieldNN op
  if nn = 0x9E then .skp x else if nn = 0xA1 then .sknp x else .invalid op

/-- Top nibble F: the low byte selects the row (R73). -/
def decodeF (op : Word) : Instr :=
  let x := fieldX op
  let nn := fieldNN op
  if nn = 0x07 then .ldVxDT x
  else if nn = 0x0A then .ldVxK x
  else if nn = 0x15 then .ldDT x
  else if nn = 0x18 then .ldST x
  else if nn = 0x1E then .addI x
  else if nn = 0x29 then .ldF x
  else if nn = 0x33 then .ldB x
  else if nn = 0x55 then .storeRegs x
  else if nn = 0x65 then .loadRegs x
  else .invalid op

/-- The decode procedure: the top nibble classifies, then the sub-case; every word has an output (R73, R74, R75). -/
def decodeWord (op : Word) : Instr :=
  let t := fieldT op
  if t = 0x0 then decode0 op
  else if t = 0x1 then .jp (fieldNNN op)
  else if t = 0x2 then .call (fieldNNN op)
  else if t = 0x3 then .seImm (fieldX op) (fieldNN op)
  else if t = 0x4 then .sneImm (fieldX op) (fieldNN op)
  else if t = 0x5 then (if fieldN op = 0 then .seReg (fieldX op) (fieldY op) else .invalid op)
  else if t = 0x6 then .ldImm (fieldX op) (fieldNN op)
  else if t = 0x7 then .addImm (fieldX op) (fieldNN op)
  else if t = 0x8 then decode8 op
  else if t = 0x9 then (if fieldN op = 0 then .sneReg (fieldX op) (fieldY op) else .invalid op)
  else if t = 0xA then .ldI (fieldNNN op)
  else if t = 0xB then .jpV0 (fieldNNN op)
  else if t = 0xC then .rnd (fieldX op) (fieldNN op)
  else if t = 0xD then .drw (fieldX op) (fieldY op) (fieldN op)
  else if t = 0xE then decodeE op
  else decodeF op

/-- The word of two bytes, the first the high byte (big-endian, R52). -/
def wordOfBytes (hi lo : Byte) : Word := hi ++ lo

/-- The high byte of a word, stored first (R52). -/
def highByte (w : Word) : Byte := w.extractLsb' 8 8

/-- The low byte of a word, stored second (R52). -/
def lowByte (w : Word) : Byte := w.extractLsb' 0 8

/-- Why a byte sequence holds no instruction. -/
inductive DecodeError where
  /-- Fewer than the two bytes of an instruction word (R70). Safe: nothing is decoded. -/
  | truncated
deriving DecidableEq, Repr

/-- What the decoder reads from a byte sequence: an instruction and the bytes after it, or why there is none. -/
inductive DecodeResult where
  | decoded (i : Instr) (rest : List Byte)
  | rejected (e : DecodeError)
deriving DecidableEq, Repr

/-- The decoder on bytes: two bytes, big-endian, make the word (R52, R70). -/
def decode : List Byte → DecodeResult
  | hi :: lo :: rest => .decoded (decodeWord (wordOfBytes hi lo)) rest
  | _ => .rejected .truncated

/-- T and NNN make a word (R71). -/
def wordNNN (t : Nibble) (nnn : Addr12) : Word := t ++ nnn
/-- T, X and NN make a word (R71). -/
def wordXNN (t x : Nibble) (nn : Byte) : Word := (t ++ x) ++ nn
/-- T, X, Y and N make a word (R71). -/
def wordXYN (t x y n : Nibble) : Word := ((t ++ x) ++ y) ++ n

/-- The word of an instruction, from the pattern of its row (R72). -/
def encodeWord : Instr → Word
  | .cls => 0x00E0
  | .ret => 0x00EE
  | .jp nnn => wordNNN 0x1 nnn
  | .call nnn => wordNNN 0x2 nnn
  | .seImm x nn => wordXNN 0x3 x nn
  | .sneImm x nn => wordXNN 0x4 x nn
  | .seReg x y => wordXYN 0x5 x y 0x0
  | .ldImm x nn => wordXNN 0x6 x nn
  | .addImm x nn => wordXNN 0x7 x nn
  | .ldReg x y => wordXYN 0x8 x y 0x0
  | .orReg x y => wordXYN 0x8 x y 0x1
  | .andReg x y => wordXYN 0x8 x y 0x2
  | .xorReg x y => wordXYN 0x8 x y 0x3
  | .addReg x y => wordXYN 0x8 x y 0x4
  | .subReg x y => wordXYN 0x8 x y 0x5
  | .shr x y => wordXYN 0x8 x y 0x6
  | .subn x y => wordXYN 0x8 x y 0x7
  | .shl x y => wordXYN 0x8 x y 0xE
  | .sneReg x y => wordXYN 0x9 x y 0x0
  | .ldI nnn => wordNNN 0xA nnn
  | .jpV0 nnn => wordNNN 0xB nnn
  | .rnd x nn => wordXNN 0xC x nn
  | .drw x y n => wordXYN 0xD x y n
  | .skp x => wordXNN 0xE x 0x9E
  | .sknp x => wordXNN 0xE x 0xA1
  | .ldVxDT x => wordXNN 0xF x 0x07
  | .ldVxK x => wordXNN 0xF x 0x0A
  | .ldDT x => wordXNN 0xF x 0x15
  | .ldST x => wordXNN 0xF x 0x18
  | .addI x => wordXNN 0xF x 0x1E
  | .ldF x => wordXNN 0xF x 0x29
  | .ldB x => wordXNN 0xF x 0x33
  | .storeRegs x => wordXNN 0xF x 0x55
  | .loadRegs x => wordXNN 0xF x 0x65
  | .invalid op => op

/-- The bytes of an instruction as the store holds them, high byte first (R52). -/
def encode (i : Instr) : List Byte := [highByte (encodeWord i), lowByte (encodeWord i)]

/-- The row of the decoder table an instruction belongs to; Invalid belongs to none (R72). -/
def Instr.pattern : Instr → Option Pattern
  | .cls => some ⟨0xFFFF, 0x00E0⟩
  | .ret => some ⟨0xFFFF, 0x00EE⟩
  | .jp _ => some ⟨0xF000, 0x1000⟩
  | .call _ => some ⟨0xF000, 0x2000⟩
  | .seImm _ _ => some ⟨0xF000, 0x3000⟩
  | .sneImm _ _ => some ⟨0xF000, 0x4000⟩
  | .seReg _ _ => some ⟨0xF00F, 0x5000⟩
  | .ldImm _ _ => some ⟨0xF000, 0x6000⟩
  | .addImm _ _ => some ⟨0xF000, 0x7000⟩
  | .ldReg _ _ => some ⟨0xF00F, 0x8000⟩
  | .orReg _ _ => some ⟨0xF00F, 0x8001⟩
  | .andReg _ _ => some ⟨0xF00F, 0x8002⟩
  | .xorReg _ _ => some ⟨0xF00F, 0x8003⟩
  | .addReg _ _ => some ⟨0xF00F, 0x8004⟩
  | .subReg _ _ => some ⟨0xF00F, 0x8005⟩
  | .shr _ _ => some ⟨0xF00F, 0x8006⟩
  | .subn _ _ => some ⟨0xF00F, 0x8007⟩
  | .shl _ _ => some ⟨0xF00F, 0x800E⟩
  | .sneReg _ _ => some ⟨0xF00F, 0x9000⟩
  | .ldI _ => some ⟨0xF000, 0xA000⟩
  | .jpV0 _ => some ⟨0xF000, 0xB000⟩
  | .rnd _ _ => some ⟨0xF000, 0xC000⟩
  | .drw _ _ _ => some ⟨0xF000, 0xD000⟩
  | .skp _ => some ⟨0xF0FF, 0xE09E⟩
  | .sknp _ => some ⟨0xF0FF, 0xE0A1⟩
  | .ldVxDT _ => some ⟨0xF0FF, 0xF007⟩
  | .ldVxK _ => some ⟨0xF0FF, 0xF00A⟩
  | .ldDT _ => some ⟨0xF0FF, 0xF015⟩
  | .ldST _ => some ⟨0xF0FF, 0xF018⟩
  | .addI _ => some ⟨0xF0FF, 0xF01E⟩
  | .ldF _ => some ⟨0xF0FF, 0xF029⟩
  | .ldB _ => some ⟨0xF0FF, 0xF033⟩
  | .storeRegs _ => some ⟨0xF0FF, 0xF055⟩
  | .loadRegs _ => some ⟨0xF0FF, 0xF065⟩
  | .invalid _ => none

/-- The instruction word of a table number: bit 0 is the word's bit 0, the bits from `nbits` up are 0 (log 17). -/
def tableWord (nbits w : Nat) : Word := BitVec.ofNat 16 (w % 2 ^ nbits)

/-- The instruction the decoder reads from a word numbered as spec/opcode_table.json numbers it, laid out high
byte first; no instruction is longer than 16 bits (R52, R70). -/
def decodeTableWord (nbits w : Nat) : Option Instr :=
  if nbits ≤ 16 then
    match decode [highByte (tableWord nbits w), lowByte (tableWord nbits w)] with
    | .decoded i _ => some i
    | .rejected _ => none
  else none

end Sys2Proof
end

