-- ==== Sys2Proof/Config.lean ====
section
/-! DEFINITION. What an implementation fixes (the parameters of spec/00_scope.md R7) and the free values (the inputs the spec lets the host choose). -/

namespace Sys2Proof

/-- The KEY_SELECT parameter: which pressed key FX0A takes when several are pressed (R7, R215, D15). -/
inductive KeySelect where
  /-- The default: the lowest-numbered pressed key (R215). -/
  | lowestPressed
  /-- Some other policy, unknown: Config.keyChoice, held to a pressed key (log 5). -/
  | implementation
deriving DecidableEq, Repr

/-- The parameters the spec leaves open with a default (R7); a machine keeps its own for good (log 3). -/
structure Params where
  /-- FONT: the 80 glyph bytes at 0x000..0x04F after reset (R55, D20). -/
  font : Vector Byte 80
  /-- SHL_FLAG_MASK: the bit 8XYE tests for VF (R152, D30). -/
  shlFlagMask : Byte
  /-- KEY_SELECT (R215, D15). -/
  keySelect : KeySelect
deriving DecidableEq, Repr

/-- Free value: the `keys` snapshot the host sends with tick number n (R36, R240; log 1). -/
opaque Config.keysAt : Nat → Word

/-- Free value: the `rnd` byte the host sends with tick number n (R36, R153, D3; log 1). -/
opaque Config.rndAt : Nat → Byte

/-- Free value: the key an implementation's own KEY_SELECT picks from a key snapshot (D15; log 5). -/
opaque Config.keyChoice : Word → Nibble

end Sys2Proof
end

