-- ==== Sys2Proof/Machine/State.lean ====
section
/-! DEFINITION. The state of the block as plain data (spec/10_state.md, spec/20_memory.md R50), the ways a step can stop, and the state right after reset (spec/70_reset_and_hazards.md R250). -/

namespace Sys2Proof.Machine

/-- Why a step stops the machine. The spec's six faults are NOT among these: the block takes them as a next
state with FAULTED set (R232; log 9). -/
inductive Fault where
  /-- Raised by step alone, for a tick after a program load of more than 3584 bytes: startup is aborted and no
  tick is admitted until reset (R56, R251). Safe: the model stops where the block does not start (log 7). -/
  | startupAborted
deriving DecidableEq, Repr

/-- Why a step has no meaning. -/
inductive Refusal where
  /-- Raised by an arm of exec for an instruction without a meaning yet, with its mnemonic; no arm raises it now.
  Safe: nothing is said of the instruction. -/
  | notModelled (mnemonic : String)
deriving DecidableEq, Repr

/-- What the host sends with one tick: the 16-key snapshot (bit k is key k) and the random byte (R36, R100). -/
structure TickInput where
  keys : Word
  rnd : Byte
deriving DecidableEq, Repr

/-- Where the block stands in the boot order (R56, R251; log 6). -/
inductive BootPhase where
  /-- After reset, before any load or tick: one load is accepted. -/
  | awaitingLoad
  /-- A load was accepted; no further load is. -/
  | loaded
  /-- A tick has been taken; no load is accepted. -/
  | ticking
  /-- A load of more than 3584 bytes was refused; no tick is admitted until reset. -/
  | loadRefused
deriving DecidableEq, Repr

/-- The memory store (R50) as the bytes that differ from the default reset contents: addresses strictly
rising, no entry equal to what an unlisted address reads as (Memory.wf). -/
abbrev Memory := List Host.Cell

/-- The framebuffer (R32): 32 rows of 64 one-bit pixels; bit x of row y is the pixel in column x (log 15). -/
abbrev FrameBuffer := Vector (BitVec 64) 32

/-- The state of the block. Every field but the last three is state the spec gives the machine. -/
structure State where
  /-- V0..VF; VF = V[15] is also the flag (R20, R21). -/
  v : Vector Byte 16
  /-- The program counter (R23). -/
  pc : Word
  /-- The index register I (R25). -/
  index : Word
  /-- STACK[0]..STACK[63] (R27). -/
  stack : Vector Word 64
  /-- SP, 0..64 inclusive: the count of entries in use (R27; log 14). -/
  sp : Fin 65
  /-- DT, the delay timer (R30). -/
  dt : Byte
  /-- ST, the sound timer (R30). -/
  st : Byte
  /-- FB, the framebuffer (R32). -/
  fb : FrameBuffer
  /-- The memory store (R34, R50). -/
  mem : Memory
  /-- Output should_draw, held until the next tick (R38, R103). -/
  shouldDraw : Bool
  /-- Output should_play_sound, held until the next tick (R38, R104). -/
  shouldPlaySound : Bool
  /-- Output invalid, held until the next tick (R38, R107). -/
  invalid : Bool
  /-- Output invalid_opcode, held until the next tick (R38, R107). -/
  invalidOpcode : Word
  /-- FAULTED, the sticky fault bit and output fault (R39). -/
  faulted : Bool
  /-- FAULT_CODE, output fault_code (R39, R231). -/
  faultCode : BitVec 3
  /-- The place in the boot order (R56, R251; log 6). -/
  boot : BootPhase
  /-- The parameters FONT, SHL_FLAG_MASK and KEY_SELECT (R7); no step writes them (log 3). -/
  params : Params
  /-- The MODEL's field: the inputs the host is known to send with the next ticks, oldest first; once it is
  empty the inputs are free values (log 1). -/
  inputs : List TickInput
  /-- The MODEL's field: the number of this tick, the index of its free inputs (log 1). -/
  tickIndex : Nat
deriving DecidableEq, Repr

/-- The machine right after reset (R250), with the default parameters and no known inputs (log 2). -/
def State.reset : State where
  v := Vector.replicate 16 0
  pc := 0x200
  index := 0
  stack := Vector.replicate 64 0
  sp := 0
  dt := 0
  st := 0
  fb := Vector.replicate 32 0
  mem := []
  shouldDraw := false
  shouldPlaySound := false
  invalid := false
  invalidOpcode := 0
  faulted := false
  faultCode := 0
  boot := .awaitingLoad
  params := defaultParams
  inputs := []
  tickIndex := 0

end Sys2Proof.Machine
end

