-- ==== Sys2Proof/Machine/Ops.lean ====
section
/-! DEFINITION. The named operations over memory, the framebuffer, the registers, the program counter and the stack, and raising a fault. -/

namespace Sys2Proof.Machine

/-! ## Memory -/

/-- What an address not listed in a memory reads as: the default reset contents, FONT at 0x000..0x04F and 0
elsewhere (R58; log 4, log 13). -/
def unlisted (a : Nat) : Byte := if h : a < 80 then defaultFont[a] else 0

/-- The byte at an address (R51). Callers check the address against 0xFFF first (R57). -/
def Memory.read : Memory → Nat → Byte
  | [], a => unlisted a
  | (k, b) :: m, a => if k = a then b else Memory.read m a

/-- The memory with an address no longer listed, so that it reads as the default. -/
def Memory.unlist : Memory → Nat → Memory
  | [], _ => []
  | (k, c) :: m, a => if k = a then Memory.unlist m a else (k, c) :: Memory.unlist m a

/-- The memory with a byte listed in its place among rising addresses. -/
def Memory.list : Memory → Nat → Byte → Memory
  | [], a, b => [(a, b)]
  | (k, c) :: m, a, b => if a < k then (a, b) :: (k, c) :: m else (k, c) :: Memory.list m a b

/-- Store a byte at an address (R51, R60); callers check the address first (R57). The canonical form is kept:
the byte an unlisted address reads as is not listed. -/
def Memory.write (m : Memory) (a : Nat) (b : Byte) : Memory :=
  if b = unlisted a then m.unlist a else (m.unlist a).list a b

/-- Store bytes at consecutive addresses from a up, one single-byte access each (R51). -/
def Memory.writeBytes : Memory → Nat → List Byte → Memory
  | m, _, [] => m
  | m, a, b :: bs => Memory.writeBytes (Memory.write m a b) (a + 1) bs

/-- The canonical form from address lo up: addresses rising, below 4096, no entry equal to the default. -/
def Memory.wfFrom : Nat → Memory → Bool
  | _, [] => true
  | lo, (a, b) :: m => decide (lo ≤ a) && decide (a < 4096) && decide (b ≠ unlisted a) && Memory.wfFrom (a + 1) m

/-- The canonical form of a memory: equal memories are equal lists. -/
def Memory.wf (m : Memory) : Bool := Memory.wfFrom 0 m

/-- The byte of the store at an address (R50). -/
def State.byteAt (s : State) (a : Nat) : Byte := Memory.read s.mem a

/-- The store with bytes written from an address up. -/
def State.writeMem (s : State) (a : Nat) (bs : List Byte) : State :=
  { s with mem := Memory.writeBytes s.mem a bs }

/-! ## Framebuffer -/

/-- The pixel in column x and row y (R32). -/
def FrameBuffer.pixel (fb : FrameBuffer) (x : BitVec 6) (y : BitVec 5) : Bool :=
  (fb[y.toNat]'y.isLt).getLsbD x.toNat

/-- The framebuffer with one pixel turned over (R191, R192). -/
def FrameBuffer.toggle (fb : FrameBuffer) (x : BitVec 6) (y : BitVec 5) : FrameBuffer :=
  fb.set y.toNat (fb[y.toNat]'y.isLt ^^^ (1#64 <<< x.toNat)) y.isLt

/-- The framebuffer with every pixel 0 (R190). -/
def FrameBuffer.blank : FrameBuffer := Vector.replicate 32 0

/-! ## Registers -/

/-- Read general register VX (R20). -/
def State.reg (s : State) (x : Nibble) : Byte := s.v[x.toNat]'x.isLt

/-- Write general register VX; no register is hardwired (R20). -/
def State.writeReg (s : State) (x : Nibble) (b : Byte) : State := { s with v := s.v.set x.toNat b x.isLt }

/-- Write a flag into VF = V[15], as 0 or 1; it comes after the result (R21, R141). -/
def State.writeFlag (s : State) (c : Bool) : State := s.writeReg 0xF (if c then 1 else 0)

/-- Write all general registers. -/
def State.writeRegs (s : State) (v : Vector Byte 16) : State := { s with v := v }

/-- Write the index register I; never masked to 12 bits (R25). -/
def State.writeIndex (s : State) (w : Word) : State := { s with index := w }

/-- Write the delay timer (R30). -/
def State.writeDT (s : State) (b : Byte) : State := { s with dt := b }

/-- Write the sound timer (R30). -/
def State.writeST (s : State) (b : Byte) : State := { s with st := b }

/-- Write the framebuffer (R32). -/
def State.writeFB (s : State) (fb : FrameBuffer) : State := { s with fb := fb }

/-! ## Program counter (R106) -/

/-- pc takes a target. -/
def State.goto (s : State) (t : Word) : State := { s with pc := t }

/-- pc advances by 2, to the next word. -/
def State.advance (s : State) : State := s.goto (s.pc + 2)

/-- pc advances by 4 when the condition holds, past the next word, else by 2 (R13, R123). -/
def State.skipIf (s : State) (c : Bool) : State := s.goto (s.pc + if c then 4 else 2)

/-! ## Call stack (R27) -/

/-- The entry a pop takes, STACK[SP - 1] (R120). -/
def State.stackTop (s : State) : Word := s.stack[s.sp.val - 1]'(by omega)

/-- Pop: SP goes down by one; the entry is not cleared (R120). -/
def State.pop (s : State) : State := { s with sp := ⟨s.sp.val - 1, by omega⟩ }

/-- Push: the word goes to STACK[SP] and SP up by one; for SP < 64 (R122). -/
def State.push (s : State) (w : Word) (h : s.sp.val < 64) : State :=
  { s with stack := s.stack.set s.sp.val w h, sp := ⟨s.sp.val + 1, by omega⟩ }

/-! ## Faults -/

/-- The six kinds of fault (R231). -/
inductive FaultKind where
  | fetchRange | memRange | stackOverflow | stackUnderflow | keyRange | indexOverflow
deriving DecidableEq, Repr

/-- The code of a fault kind, the value of fault_code (R231). -/
def FaultKind.code : FaultKind → BitVec 3
  | .fetchRange => 1
  | .memRange => 2
  | .stackOverflow => 3
  | .stackUnderflow => 4
  | .keyRange => 5
  | .indexOverflow => 6

/-- The four outputs a fault clears read 0 (R108). -/
def State.clearOutputs (s : State) : State :=
  { s with shouldDraw := false, shouldPlaySound := false, invalid := false, invalidOpcode := 0 }

/-- Taking a fault, the block's one exception: no register, pc, stack entry, byte, pixel or timer is written;
FAULTED and FAULT_CODE are set and the other outputs read 0 (R11, R108, R232; log 9). Nothing returns from it
but a reset (R239). -/
def State.raiseFault (s : State) (k : FaultKind) : State :=
  { s.clearOutputs with faulted := true, faultCode := k.code }

end Sys2Proof.Machine
end

