-- ==== Sys2Proof/Machine/Operands.lean ====
section
/-! DEFINITION. The operand forms (spec/30_encoding.md R71, R79): immediate addresses, the effective addresses I + k (R177), the tick's inputs, register lists, the key choice. -/

namespace Sys2Proof.Machine

/-- The 12-bit NNN zero-extended to 16 bits (R71). -/
def addrWord (nnn : Addr12) : Word := nnn.setWidth 16

/-- The effective address I + k, exact, without a wrap (R177). -/
def State.effAddr (s : State) (k : Nat) : Nat := s.index.toNat + k

/-- The effective address I + k lies past the store (R57, R233). -/
def State.pastStore (s : State) (k : Nat) : Bool := decide (s.effAddr k > 0xFFF)

/-- The key snapshot of this tick: the next known input, else a free value (R36; log 1). -/
def State.keys (s : State) : Word :=
  match s.inputs with
  | i :: _ => i.keys
  | [] => Config.keysAt s.tickIndex

/-- The random byte of this tick: the next known input, else a free value (R36, R153; log 1). -/
def State.rnd (s : State) : Byte :=
  match s.inputs with
  | i :: _ => i.rnd
  | [] => Config.rndAt s.tickIndex

/-- KEYS[k] (R9, R216). -/
def keyPressed (keys : Word) (k : Nat) : Bool := keys.getLsbD k

/-- The lowest-numbered pressed key, min of the k with KEYS[k] = 1 (R215). -/
def lowestKey (keys : Word) : Nibble :=
  match (List.range 16).find? (keyPressed keys) with
  | some k => BitVec.ofNat 4 k
  | none => 0

/-- KEY_SELECT(KEYS) under a policy: a pressed key (R7, R215, D15; log 5). -/
def selectKey (p : KeySelect) (keys : Word) : Nibble :=
  match p with
  | .lowestPressed => lowestKey keys
  | .implementation =>
    if keyPressed keys (Config.keyChoice keys).toNat then Config.keyChoice keys else lowestKey keys

/-- V0..VX, the X+1 registers FX55 stores (R175). -/
def State.regsUpTo (s : State) (x : Nibble) : List Byte := s.v.toList.take (x.toNat + 1)

/-- The registers with V0..VX loaded from consecutive addresses from a up, the others as they are (R176). -/
def State.regsLoaded (s : State) (x : Nibble) (a : Nat) : Vector Byte 16 :=
  Vector.ofFn fun k : Fin 16 => if k.val ≤ x.toNat then s.byteAt (a + k.val) else s.v[k.val]

/-- The three decimal digits of a byte: hundreds, tens, ones (R174, D13). -/
def bcdDigits (a : Byte) : List Byte :=
  [BitVec.ofNat 8 (a.toNat / 100), BitVec.ofNat 8 (a.toNat / 10 % 10), BitVec.ofNat 8 (a.toNat % 10)]

end Sys2Proof.Machine
end

