-- ==== Sys2Proof/Machine/Flags.lean ====
section
/-! DEFINITION. Every flag computation (spec/10_state.md R21): the value VF takes from the operands as they stood at the start of the tick. -/

namespace Sys2Proof.Machine

/-- Carry out of bit 7 of a + b (R148). -/
def carryOut (a b : Byte) : Bool := decide (a.toNat + b.toNat > 255)

/-- NOT borrow of a - b (R149; R151 with the operands the other way round). -/
def notBorrow (a b : Byte) : Bool := decide (a.toNat ≥ b.toNat)

/-- The bit a right shift moves out, from the value before the shift (R150, C7). -/
def shiftedOutRight (a : Byte) : Bool := a.getLsbD 0

/-- The bit 8XYE tests, selected by SHL_FLAG_MASK, from the value before the shift (R152, C3, D5). -/
def shiftLeftFlag (mask a : Byte) : Bool := decide (a &&& mask ≠ 0)

/-- The exact sum I + VX of FX1E (R171). -/
def indexSum (i : Word) (a : Byte) : Nat := i.toNat + a.toNat

/-- The new index is past 0xFFF (R171, D11). -/
def pastIndexRange (sum : Nat) : Bool := decide (sum > 0xFFF)

end Sys2Proof.Machine
end

