-- ==== Sys2Proof/Machine/Alu.lean ====
section
/-! DEFINITION. The 8-bit ALU (spec/42_alu.md R140 to R153): the result to VX mod 256, then the flag to VF, then pc + 2 (R141). -/

namespace Sys2Proof.Machine

open Host (Outcome)

/-- An instruction that writes VX and no flag (R142 to R147, R153). -/
def State.aluResult (s : State) (x : Nibble) (r : Byte) : State := (s.writeReg x r).advance

/-- An instruction that writes VX and then the flag VF, so that for X = 0xF the flag stays (R141). -/
def State.aluFlagged (s : State) (x : Nibble) (r : Byte) (c : Bool) : State :=
  ((s.writeReg x r).writeFlag c).advance

/-- 6XNN, VX = NN (R142). -/
def execLdImm (x : Nibble) (nn : Byte) (s : State) : Outcome State Fault Refusal :=
  .next (s.aluResult x nn)

/-- 7XNN, VX += NN mod 256, no flag (R143, D29). -/
def execAddImm (x : Nibble) (nn : Byte) (s : State) : Outcome State Fault Refusal :=
  .next (s.aluResult x (s.reg x + nn))

/-- 8XY0, VX = VY (R144). -/
def execLdReg (x y : Nibble) (s : State) : Outcome State Fault Refusal :=
  .next (s.aluResult x (s.reg y))

/-- 8XY1, VX = VX OR VY (R145). -/
def execOrReg (x y : Nibble) (s : State) : Outcome State Fault Refusal :=
  .next (s.aluResult x (s.reg x ||| s.reg y))

/-- 8XY2, VX = VX AND VY (R146). -/
def execAndReg (x y : Nibble) (s : State) : Outcome State Fault Refusal :=
  .next (s.aluResult x (s.reg x &&& s.reg y))

/-- 8XY3, VX = VX XOR VY (R147). -/
def execXorReg (x y : Nibble) (s : State) : Outcome State Fault Refusal :=
  .next (s.aluResult x (s.reg x ^^^ s.reg y))

/-- 8XY4, VX = VX + VY mod 256, VF = carry (R148). -/
def execAddReg (x y : Nibble) (s : State) : Outcome State Fault Refusal :=
  .next (s.aluFlagged x (s.reg x + s.reg y) (carryOut (s.reg x) (s.reg y)))

/-- 8XY5, VX = VX - VY mod 256, VF = NOT borrow (R149). -/
def execSubReg (x y : Nibble) (s : State) : Outcome State Fault Refusal :=
  .next (s.aluFlagged x (s.reg x - s.reg y) (notBorrow (s.reg x) (s.reg y)))

/-- 8XY6, VX = VX >> 1, VF = old bit 0; VY has no effect (R150). -/
def execShr (x _y : Nibble) (s : State) : Outcome State Fault Refusal :=
  .next (s.aluFlagged x (s.reg x >>> 1) (shiftedOutRight (s.reg x)))

/-- 8XY7, VX = VY - VX mod 256, VF = NOT borrow of that difference (R151). -/
def execSubn (x y : Nibble) (s : State) : Outcome State Fault Refusal :=
  .next (s.aluFlagged x (s.reg y - s.reg x) (notBorrow (s.reg y) (s.reg x)))

/-- 8XYE, VX = VX << 1 mod 256, VF = the bit SHL_FLAG_MASK selects; VY has no effect (R152). -/
def execShl (x _y : Nibble) (s : State) : Outcome State Fault Refusal :=
  .next (s.aluFlagged x (s.reg x <<< 1) (shiftLeftFlag s.params.shlFlagMask (s.reg x)))

/-- CXNN, VX = NN AND the tick's random byte (R153). -/
def execRnd (x : Nibble) (nn : Byte) (s : State) : Outcome State Fault Refusal :=
  .next (s.aluResult x (nn &&& s.rnd))

end Sys2Proof.Machine
end

