-- ==== Sys2Proof/Machine/Control.lean ====
section
/-! DEFINITION. Control transfer (spec/41_control_flow.md R120 to R127) and the Invalid word (spec/40_execution_cycle.md R107). -/

namespace Sys2Proof.Machine

open Host (Outcome)

/-- 00EE, return: pop into pc; Fault(STACK_UNDERFLOW) when SP = 0 (R120). -/
def execRet (s : State) : Outcome State Fault Refusal :=
  .next (if s.sp.val = 0 then s.raiseFault .stackUnderflow else s.pop.goto s.stackTop)

/-- 1NNN, jump (R121). -/
def execJp (nnn : Addr12) (s : State) : Outcome State Fault Refusal :=
  .next (s.goto (addrWord nnn))

/-- 2NNN, call: push p + 2 and jump; Fault(STACK_OVERFLOW) when SP = 64 (R122). -/
def execCall (nnn : Addr12) (s : State) : Outcome State Fault Refusal :=
  .next (if h : s.sp.val < 64 then (s.push (s.pc + 2) h).goto (addrWord nnn)
         else s.raiseFault .stackOverflow)

/-- 3XNN, skip if VX equals NN (R123). -/
def execSeImm (x : Nibble) (nn : Byte) (s : State) : Outcome State Fault Refusal :=
  .next (s.skipIf (s.reg x == nn))

/-- 4XNN, skip if VX does not equal NN (R124). -/
def execSneImm (x : Nibble) (nn : Byte) (s : State) : Outcome State Fault Refusal :=
  .next (s.skipIf (s.reg x != nn))

/-- 5XY0, skip if VX equals VY (R125). -/
def execSeReg (x y : Nibble) (s : State) : Outcome State Fault Refusal :=
  .next (s.skipIf (s.reg x == s.reg y))

/-- 9XY0, skip if VX does not equal VY (R126). -/
def execSneReg (x y : Nibble) (s : State) : Outcome State Fault Refusal :=
  .next (s.skipIf (s.reg x != s.reg y))

/-- BNNN, jump to (V0 + NNN) mod 0x1000 (R127, D6). -/
def execJpV0 (nnn : Addr12) (s : State) : Outcome State Fault Refusal :=
  .next (s.goto (BitVec.ofNat 16 (((s.reg 0).toNat + nnn.toNat) % 0x1000)))

/-- An Invalid word: pc advances by 2 and nothing else is written; the tick reports the word (R107, R230). -/
def execInvalid (_op : Word) (s : State) : Outcome State Fault Refusal :=
  .next s.advance

end Sys2Proof.Machine
end

