-- ==== Sys2Proof/Machine/Display.lean ====
section
/-! DEFINITION. Clear-screen and the sprite XOR-blitter with its collision detector (spec/44_display.md R190 to R192). -/

namespace Sys2Proof.Machine

open Host (Outcome)

/-- The blitter in the middle of a draw: the framebuffer so far, and whether a set pixel was turned off. -/
structure Blit where
  fb : FrameBuffer
  hit : Bool
deriving DecidableEq, Repr

/-- The column address (x0 + col) mod 64 (R191, R192). -/
def spriteColumn (x0 : Byte) (col : Nat) : BitVec 6 := BitVec.ofNat 6 (x0.toNat + col)

/-- The row address (y0 + row) mod 32 (R191, R192). -/
def spriteRow (y0 : Byte) (row : Nat) : BitVec 5 := BitVec.ofNat 5 (y0.toNat + row)

/-- One bit of a sprite row, the most significant first: a set bit turns its pixel over and collides if the
pixel was 1 (R191; log 21). -/
def blitBit (x0 y0 : Byte) (row : Nat) (b : Byte) (acc : Blit) (col : Nat) : Blit :=
  if b.getLsbD (7 - col) then
    let px := spriteColumn x0 col
    let py := spriteRow y0 row
    { fb := acc.fb.toggle px py, hit := acc.hit || acc.fb.pixel px py }
  else acc

/-- The eight columns of one sprite row (R191). -/
def blitRow (x0 y0 : Byte) (row : Nat) (b : Byte) (acc : Blit) : Blit :=
  (List.range 8).foldl (blitBit x0 y0 row b) acc

/-- The N rows of a sprite, the byte of each row given by its number (R191). -/
def blitRows (x0 y0 : Byte) (rowByte : Nat → Byte) (n : Nat) (acc : Blit) : Blit :=
  (List.range n).foldl (fun acc row => blitRow x0 y0 row (rowByte row) acc) acc

/-- The whole draw at (x0, y0) of the n bytes from I up (R191). -/
def State.drawSprite (s : State) (x0 y0 : Byte) (n : Nibble) : Blit :=
  blitRows x0 y0 (fun row => s.byteAt (s.effAddr row)) n.toNat { fb := s.fb, hit := false }

/-- 00E0, clear screen (R190). -/
def execCls (s : State) : Outcome State Fault Refusal :=
  .next (s.writeFB FrameBuffer.blank).advance

/-- DXYN, draw sprite; Fault(MEM_RANGE) when N > 0 and I + N - 1 > 0xFFF (R191). -/
def execDrw (x y n : Nibble) (s : State) : Outcome State Fault Refusal :=
  let draw := s.drawSprite (s.reg x) (s.reg y) n
  .next (if n.toNat > 0 && s.pastStore (n.toNat - 1) then s.raiseFault .memRange
         else ((s.writeFB draw.fb).writeFlag draw.hit).advance)

end Sys2Proof.Machine
end

