-- ==== Sys2Proof/Machine/Index.lean ====
section
/-! DEFINITION. The index register, the BCD store and the register dump and load (spec/43_index_memory.md R170 to R177). -/

namespace Sys2Proof.Machine

open Host (Outcome)

/-- ANNN, I = NNN (R170). -/
def execLdI (nnn : Addr12) (s : State) : Outcome State Fault Refusal :=
  .next (s.writeIndex (addrWord nnn)).advance

/-- FX1E, I += VX and VF = past 0xFFF; Fault(INDEX_OVERFLOW) when the sum does not fit 16 bits (R171). -/
def execAddI (x : Nibble) (s : State) : Outcome State Fault Refusal :=
  let sum := indexSum s.index (s.reg x)
  .next (if sum > 0xFFFF then s.raiseFault .indexOverflow
         else ((s.writeIndex (BitVec.ofNat 16 sum)).writeFlag (pastIndexRange sum)).advance)

/-- FX29, I = VX * 5, exact (R173, D12). -/
def execLdF (x : Nibble) (s : State) : Outcome State Fault Refusal :=
  .next (s.writeIndex (BitVec.ofNat 16 ((s.reg x).toNat * 5))).advance

/-- FX33, the decimal digits of VX to I, I+1, I+2; Fault(MEM_RANGE) when I + 2 > 0xFFF (R174). -/
def execLdB (x : Nibble) (s : State) : Outcome State Fault Refusal :=
  .next (if s.pastStore 2 then s.raiseFault .memRange
         else (s.writeMem (s.effAddr 0) (bcdDigits (s.reg x))).advance)

/-- FX55, V0..VX to I..I+X, then I += X + 1; Fault(MEM_RANGE) when I + X > 0xFFF (R175). -/
def execStoreRegs (x : Nibble) (s : State) : Outcome State Fault Refusal :=
  .next (if s.pastStore x.toNat then s.raiseFault .memRange
         else ((s.writeMem (s.effAddr 0) (s.regsUpTo x)).writeIndex
           (BitVec.ofNat 16 (s.effAddr x.toNat + 1))).advance)

/-- FX65, I..I+X to V0..VX, then I += X + 1; Fault(MEM_RANGE) when I + X > 0xFFF (R176). -/
def execLoadRegs (x : Nibble) (s : State) : Outcome State Fault Refusal :=
  .next (if s.pastStore x.toNat then s.raiseFault .memRange
         else ((s.writeRegs (s.regsLoaded x (s.effAddr 0))).writeIndex
           (BitVec.ofNat 16 (s.effAddr x.toNat + 1))).advance)

end Sys2Proof.Machine
end

