-- ==== Sys2Proof/Machine/TimersKeys.lean ====
section
/-! DEFINITION. The timer instructions and the key tests (spec/45_timers_keys.md R210 to R216). The decrement that follows in the same tick is in Machine/Tick.lean (R105). -/

namespace Sys2Proof.Machine

open Host (Outcome)

/-- FX07, VX = DT, the value before this tick's decrement (R210). -/
def execLdVxDT (x : Nibble) (s : State) : Outcome State Fault Refusal :=
  .next (s.writeReg x s.dt).advance

/-- FX15, DT = VX (R211). -/
def execLdDT (x : Nibble) (s : State) : Outcome State Fault Refusal :=
  .next (s.writeDT (s.reg x)).advance

/-- FX18, ST = VX (R212). -/
def execLdST (x : Nibble) (s : State) : Outcome State Fault Refusal :=
  .next (s.writeST (s.reg x)).advance

/-- A key test: Fault(KEY_RANGE) when the key number is above 15, else skip when the key's bit is as wanted
(R213, R214, R216). -/
def State.keyTest (s : State) (key : Byte) (wanted : Bool) : State :=
  if key.toNat > 15 then s.raiseFault .keyRange else s.skipIf (keyPressed s.keys key.toNat == wanted)

/-- EX9E, skip if key VX is pressed (R213). -/
def execSkp (x : Nibble) (s : State) : Outcome State Fault Refusal :=
  .next (s.keyTest (s.reg x) true)

/-- EXA1, skip if key VX is not pressed (R214). -/
def execSknp (x : Nibble) (s : State) : Outcome State Fault Refusal :=
  .next (s.keyTest (s.reg x) false)

/-- FX0A, key poll: with a key pressed its number goes to VX and pc advances; with none pc stays (R215). -/
def execLdVxK (x : Nibble) (s : State) : Outcome State Fault Refusal :=
  .next (if s.keys = 0 then s
         else (s.writeReg x ((selectKey s.params.keySelect s.keys).setWidth 8)).advance)

end Sys2Proof.Machine
end

