-- ==== Sys2Proof/Machine/Tick.lean ====
section
/-! DEFINITION. The tick (spec/40_execution_cycle.md R100 to R109): fetch, decode, execute, sound sample, timer decrement, outputs; the faulted block; placing an instruction where the fetch reads it. -/

namespace Sys2Proof.Machine

open Host (Outcome)

/-- Phase 1: the bytes at pc and pc + 1; none where pc + 1 > 0xFFF (R52, R53). -/
def State.fetchBytes (s : State) : Option (List Byte) :=
  if s.pc.toNat + 1 > 0xFFF then none
  else some [s.byteAt s.pc.toNat, s.byteAt (s.pc.toNat + 1)]

/-- Phase 4: should_play_sound is 1 exactly when ST equals 1 before the decrement (R104, D17). -/
def State.sampleSound (s : State) : State := { s with shouldPlaySound := s.st == 1 }

/-- A timer above zero goes down by 1; a timer at zero stays (R105). -/
def countDown (t : Byte) : Byte := if t = 0 then 0 else t - 1

/-- Phase 5: both timers count down (R105). -/
def State.decrementTimers (s : State) : State := { s with dt := countDown s.dt, st := countDown s.st }

/-- The instructions that set should_draw: clear-screen and draw-sprite (R103). -/
def drawsScreen : Instr → Bool
  | .cls | .drw _ _ _ => true
  | .ret | .jp _ | .call _ | .seImm _ _ | .sneImm _ _ | .seReg _ _ | .ldImm _ _ | .addImm _ _ => false
  | .ldReg _ _ | .orReg _ _ | .andReg _ _ | .xorReg _ _ | .addReg _ _ | .subReg _ _ => false
  | .shr _ _ | .subn _ _ | .shl _ _ | .sneReg _ _ | .ldI _ | .jpV0 _ | .rnd _ _ => false
  | .skp _ | .sknp _ | .ldVxDT _ | .ldVxK _ | .ldDT _ | .ldST _ | .addI _ => false
  | .ldF _ | .ldB _ | .storeRegs _ | .loadRegs _ | .invalid _ => false

/-- The raw word of an Invalid, which the tick reports (R107, R230). -/
def invalidWord : Instr → Option Word
  | .invalid op => some op
  | .cls | .drw _ _ _ => none
  | .ret | .jp _ | .call _ | .seImm _ _ | .sneImm _ _ | .seReg _ _ | .ldImm _ _ | .addImm _ _ => none
  | .ldReg _ _ | .orReg _ _ | .andReg _ _ | .xorReg _ _ | .addReg _ _ | .subReg _ _ => none
  | .shr _ _ | .subn _ _ | .shl _ _ | .sneReg _ _ | .ldI _ | .jpV0 _ | .rnd _ _ => none
  | .skp _ | .sknp _ | .ldVxDT _ | .ldVxK _ | .ldDT _ | .ldST _ | .addI _ => none
  | .ldF _ | .ldB _ | .storeRegs _ | .loadRegs _ => none

/-- Phase 6: the outputs of the tick (R101, R103, R107). -/
def State.setOutputs (s : State) (i : Instr) : State :=
  { s with shouldDraw := drawsScreen i, invalid := (invalidWord i).isSome, invalidOpcode := (invalidWord i).getD 0 }

/-- Phases 4 to 6 after an execute phase; a fault in that phase abandons them (R101, R232). -/
def State.afterExecute (s : State) (i : Instr) : State :=
  if s.faulted then s else (s.sampleSound.decrementTimers).setOutputs i

/-- The end of a tick pulse: its input is used up, the tick is counted, and no load is accepted any more
(R38, R56; log 1, log 6). -/
def State.closeTick (s : State) : State :=
  { s with inputs := s.inputs.tail, tickIndex := s.tickIndex + 1, boot := .ticking }

/-- A tick of a faulted block: no effect, and the outputs read 0 (R108; log 10). -/
def State.faultedTick (s : State) : State := s.clearOutputs.closeTick

/-- Run a decoded instruction through phases 3 to 6 (R101). -/
def runInstr (i : Instr) (s : State) : Outcome State Fault Refusal :=
  match exec i s with
  | .next t => .next (t.afterExecute i).closeTick
  | .fault r => .fault r
  | .refused r => .refused r

/-- One tick of a block that has started and is not faulted: fetch, decode, run; Fault(FETCH_RANGE) where the
word does not lie in the store (R101, R53, R234). -/
def runningTick (s : State) : Outcome State Fault Refusal :=
  match s.fetchBytes with
  | none => .next (s.raiseFault .fetchRange).closeTick
  | some bytes =>
    match decode bytes with
    | .decoded i _ => runInstr i s
    | .rejected _ => .next (s.raiseFault .fetchRange).closeTick

/-- One tick (R101): none is admitted after a refused load (R56; log 7); a faulted block does nothing (R108). -/
def tick (s : State) : Outcome State Fault Refusal :=
  if s.boot = .loadRefused then .fault .startupAborted
  else if s.faulted then .next s.faultedTick
  else runningTick s

/-- The state with an instruction word in the two bytes the fetch reads next, where they lie in the store
(R52; log 12). -/
def State.placeWord (s : State) (op : Word) : State :=
  if s.pc.toNat + 1 > 0xFFF then s else s.writeMem s.pc.toNat [highByte op, lowByte op]

end Sys2Proof.Machine
end

