-- ==== Sys2Proof/Machine/Step.lean ====
section
/-! DEFINITION. One step of the block is one tick (spec/40_execution_cycle.md R100). -/

namespace Sys2Proof.Machine

/-- One step: one tick, with the inputs the state gives it (R100, R101; log 1). -/
def step (s : State) : Host.Outcome State Fault Refusal := tick s

/-- The state with an instruction stored where step fetches next: its word, the bits from `nbits` up 0, goes
big-endian to pc and pc + 1, and nothing else changes (log 12). -/
def State.withFetchWord (s : State) (nbits w : Nat) : State :=
  s.placeWord (tableWord nbits w)

end Sys2Proof.Machine
end

