-- ==== Sys2Proof/Machine/HostPort.lean ====
section
/-! DEFINITION. What the host does to the block between ticks (spec/60_exceptions.md R240): reset, program load, the framebuffer read port. None of these is a step (log 11). -/

namespace Sys2Proof.Machine

/-- The construction state for given parameters (R250): as State.reset, with FONT at 0x000..0x04F (R55, R58). -/
def State.construct (p : Params) : State :=
  { State.reset with mem := Memory.writeBytes [] 0 p.font.toList, params := p }

/-- A pulse on reset: the construction state again, no state survives (R250, R252). The parameters are the
machine's; the known inputs and the tick number are the host's and go on (log 19). -/
def hostReset (s : State) : State :=
  { State.construct s.params with inputs := s.inputs, tickIndex := s.tickIndex }

/-- A program load: accepted once, after reset and before the first tick; up to 3584 bytes go to 0x200 and up,
more than that is refused and the block never starts (R56, R251, D27). A load at another time is not accepted
and changes nothing (log 8). -/
def hostLoad (image : List Byte) (s : State) : State :=
  if s.boot = .awaitingLoad then
    if image.length ≤ 3584 then { s.writeMem 0x200 image with boot := .loaded }
    else { s with boot := .loadRefused }
  else s

/-- The framebuffer read port: fb_pixel for fb_x and fb_y, with no side effect (R37). -/
def framebufferPort (s : State) (x : BitVec 6) (y : BitVec 5) : Bool := s.fb.pixel x y

end Sys2Proof.Machine
end

