-- ==== Sys2Proof/Safety.lean ====
section
/-! DEFINITION. What counts as a safe state and run, and the invariant of the block, in the terms the statements use. -/

namespace Sys2Proof.Machine

/-- The next tick executes an instruction: the block has started, is not faulted, and the word at pc lies in
the store (R53, R56, R108). -/
abbrev State.canExecute (s : State) : Prop :=
  s.boot ≠ .loadRefused ∧ s.faulted = false ∧ s.pc.toNat + 1 ≤ 0xFFF

/-- The instruction at pc (R52, R101). -/
def State.current (s : State) : Instr :=
  decodeWord (wordOfBytes (s.byteAt s.pc.toNat) (s.byteAt (s.pc.toNat + 1)))

/-- A safe state: no fault has been raised and startup was not aborted (R39, R56). -/
abbrev State.Safe (s : State) : Prop := s.faulted = false ∧ s.boot ≠ .loadRefused

/-- The state a fault with this code leaves, field by field: nothing is written but FAULTED, FAULT_CODE and the
four outputs that read 0 (R108, R232). -/
def State.afterFault (s : State) (code : BitVec 3) : State :=
  { s with faulted := true, faultCode := code, shouldDraw := false, shouldPlaySound := false,
           invalid := false, invalidOpcode := 0 }

/-- The fault state is coherent: no code while not faulted; faulted, a code of R231 and outputs that read 0 (R39, R108). -/
abbrev State.FaultCoherent (s : State) : Prop :=
  (s.faulted = false → s.faultCode = 0) ∧
  (s.faulted = true → 1 ≤ s.faultCode.toNat ∧ s.faultCode.toNat ≤ 6 ∧ s.shouldDraw = false ∧
    s.shouldPlaySound = false ∧ s.invalid = false ∧ s.invalidOpcode = 0)

/-- The Invalid report is coherent: invalid_opcode is 0 while invalid is 0, and else a word of the Invalid space;
no tick reports Invalid and draws (R36, R76, R103). -/
abbrev State.ReportCoherent (s : State) : Prop :=
  (s.invalid = false → s.invalidOpcode = 0) ∧
  (s.invalid = true → isInstructionWord s.invalidOpcode = false ∧ s.shouldDraw = false)

/-- pc is at most 0x1002 and every stack entry at most 0x1000, so no pc + 4 wraps in 16 bits (R106). -/
abbrev State.PcBounded (s : State) : Prop :=
  s.pc.toNat ≤ 0x1002 ∧ ∀ k : Fin 64, s.stack[k].toNat ≤ 0x1000

/-- The invariant of the block. -/
abbrev State.Inv (s : State) : Prop :=
  s.mem.wf = true ∧ s.FaultCoherent ∧ s.ReportCoherent ∧ s.PcBounded

/-- The instructions that write VF as a flag (R21). -/
def writesFlag : Instr → Bool
  | .addReg _ _ | .subReg _ _ | .shr _ _ | .subn _ _ | .shl _ _ | .addI _ | .drw _ _ _ => true
  | .cls | .ret | .jp _ | .call _ | .seImm _ _ | .sneImm _ _ | .seReg _ _ | .ldImm _ _ | .addImm _ _ => false
  | .ldReg _ _ | .orReg _ _ | .andReg _ _ | .xorReg _ _ | .sneReg _ _ | .ldI _ | .jpV0 _ | .rnd _ _ => false
  | .skp _ | .sknp _ | .ldVxDT _ | .ldVxK _ | .ldDT _ | .ldST _ => false
  | .ldF _ | .ldB _ | .storeRegs _ | .loadRegs _ | .invalid _ => false

/-- The instruction's ordinary destination takes in VF: it names X = 0xF, or loads V0..VF (R21, R176). -/
def destinationVF : Instr → Bool
  | .ldImm x _ | .addImm x _ | .ldReg x _ | .orReg x _ | .andReg x _ | .xorReg x _ => x == 0xF
  | .addReg x _ | .subReg x _ | .shr x _ | .subn x _ | .shl x _ | .rnd x _ => x == 0xF
  | .ldVxDT x | .ldVxK x | .loadRegs x => x == 0xF
  | .cls | .ret | .jp _ | .call _ | .seImm _ _ | .sneImm _ _ | .seReg _ _ | .sneReg _ _ => false
  | .ldI _ | .jpV0 _ | .drw _ _ _ | .skp _ | .sknp _ | .ldDT _ | .ldST _ | .addI _ => false
  | .ldF _ | .ldB _ | .storeRegs _ | .invalid _ => false

/-- An ALU instruction with a flag, from s to t, its result the number r and its flag the condition c: VF is 1
when c holds, else 0; for X other than 0xF, VX holds r; every other register is as before; pc advances by 2;
nothing else changes (R141). -/
def FlaggedResult (s t : State) (x : Nibble) (r : Nat) (c : Prop) : Prop :=
  (c → t.reg 0xF = 1) ∧ (¬ c → t.reg 0xF = 0) ∧ (x ≠ 0xF → (t.reg x).toNat = r) ∧
  (∀ k, k ≠ x → k ≠ 0xF → t.reg k = s.reg k) ∧ t = { s with v := t.v, pc := s.pc + 2 }

/-- Some set bit of the sprite of n rows at I, drawn at (x0, y0), lands on the pixel (px, py): row and column
numbers wrap, the most significant bit is the leftmost (R191). -/
def SpriteCovers (s : State) (x0 y0 : Byte) (n : Nibble) (px : BitVec 6) (py : BitVec 5) : Prop :=
  ∃ row col : Nat, row < n.toNat ∧ col < 8 ∧
    (s.byteAt (s.index.toNat + row)).getLsbD (7 - col) = true ∧
    px.toNat = (x0.toNat + col) % 64 ∧ py.toNat = (y0.toNat + row) % 32

end Sys2Proof.Machine
end

