-- ==== Sys2Proof/Certificates/Slice0/Obligations.lean ====
section
/-! DEFINITION. The statements for the provers, from the numbered rules of spec/. In a statement, "t = s with fields …" is the frame: every field of the state not named there, memory and the exception registers among them, is exactly as before. -/

open Sys2Proof Sys2Proof.Machine

/-! ## Encoding and decoding (spec/30_encoding.md) -/

/-- The decoder table of 95_test_vectors.md section 2.1, and words of the other families built from R72. -/
def Obligations.DecodeSampleWords : Prop :=
  decodeWord 0x00E0 = .cls ∧ decodeWord 0x00EE = .ret ∧ decodeWord 0x0000 = .invalid 0x0000 ∧
  decodeWord 0x0123 = .invalid 0x0123 ∧ decodeWord 0x00E1 = .invalid 0x00E1 ∧
  decodeWord 0x5120 = .seReg 1 2 ∧ decodeWord 0x5121 = .invalid 0x5121 ∧
  decodeWord 0x8008 = .invalid 0x8008 ∧ decodeWord 0x800F = .invalid 0x800F ∧ decodeWord 0x800E = .shl 0 0 ∧
  decodeWord 0x9121 = .invalid 0x9121 ∧ decodeWord 0xE09E = .skp 0 ∧ decodeWord 0xE09F = .invalid 0xE09F ∧
  decodeWord 0xF007 = .ldVxDT 0 ∧ decodeWord 0xF0FF = .invalid 0xF0FF ∧ decodeWord 0xB123 = .jpV0 0x123 ∧
  decodeWord 0x2210 = .call 0x210 ∧ decodeWord 0x8024 = .addReg 0 2 ∧ decodeWord 0xA300 = .ldI 0x300 ∧
  decodeWord 0xD232 = .drw 2 3 2 ∧ decodeWord 0xF155 = .storeRegs 1 ∧ decodeWord 0xC20F = .rnd 2 0x0F ∧
  decode [0x80, 0x25] = .decoded (.subReg 0 2) []

/-- Decoding an encoded well-formed instruction gives it back, and the bytes after it, for every operand. -/
def Obligations.DecodeEncodeRoundTrip : Prop :=
  ∀ (i : Instr) (rest : List Byte), i.wellFormed = true → decode (encode i ++ rest) = .decoded i rest

/-- R72: every word goes to exactly one output: to the instruction of the one row whose fixed bits it has, with
the word's own fields (its encoding is the word), or, where no row takes it, to Invalid with the raw word. -/
def Obligations.DecoderIsTheTable : Prop :=
  ∀ op : Word,
    encodeWord (decodeWord op) = op ∧ (decodeWord op).wellFormed = true ∧
    match (decodeWord op).pattern with
    | some p => p ∈ patterns ∧ p.accepts op = true ∧ ∀ q ∈ patterns, q.accepts op = true → q = p
    | none => decodeWord op = .invalid op ∧ ∀ q ∈ patterns, q.accepts op = false

/-- R77, and the classes of R76: the Invalid words, by their digits. -/
def Obligations.InvalidSpaceByDigits : Prop :=
  ∀ op : Word, decodeWord op = .invalid op ↔
    (op.toNat / 0x1000 = 0x0 ∧ op ≠ 0x00E0 ∧ op ≠ 0x00EE) ∨
    (op.toNat / 0x1000 = 0x5 ∧ op.toNat % 16 ≠ 0) ∨
    (op.toNat / 0x1000 = 0x8 ∧ 8 ≤ op.toNat % 16 ∧ op.toNat % 16 ≠ 0xE) ∨
    (op.toNat / 0x1000 = 0x9 ∧ op.toNat % 16 ≠ 0) ∨
    (op.toNat / 0x1000 = 0xE ∧ op.toNat % 256 ∉ [0x9E, 0xA1]) ∨
    (op.toNat / 0x1000 = 0xF ∧ op.toNat % 256 ∉ [0x07, 0x0A, 0x15, 0x18, 0x1E, 0x29, 0x33, 0x55, 0x65])

/-! ## Reset, load and the host (spec/70_reset_and_hazards.md, spec/20_memory.md R56) -/

/-- R22, R24, R26: on reset every V is 0, pc is 0x200 and I is 0, in the reset state and after a reset of any state. -/
def Obligations.ResetClearsRegisters : Prop :=
  ∀ s : State, ∀ r ∈ [State.reset, hostReset s], r.pc.toNat = 0x200 ∧ r.index = 0 ∧ ∀ x, r.reg x = 0

/-- The rest of R250 after a reset of any state. It rests on the spec's own decisions D18, D19, D20, D23 (log 13),
and on the model's choice that the parameters outlive a reset (log 19). With the default parameters it is State.reset. -/
def Obligations.ResetRebuildsTheRest : Prop :=
  hostReset State.reset = State.reset ∧
  ∀ s : State, ∀ r, r = hostReset s →
    r.sp.val = 0 ∧ (∀ k : Fin 64, r.stack[k] = 0) ∧ r.dt = 0 ∧ r.st = 0 ∧
    (∀ x y, framebufferPort r x y = false) ∧
    (∀ a, a < 4096 → r.byteAt a = if h : a < 80 then s.params.font[a] else 0) ∧
    r.shouldDraw = false ∧ r.shouldPlaySound = false ∧ r.invalid = false ∧ r.invalidOpcode = 0 ∧
    r.faulted = false ∧ r.faultCode = 0 ∧ r.boot = .awaitingLoad ∧ r.params = s.params

/-- R56: an accepted load writes byte k of the image to 0x200 + k and no other byte; nothing else changes but
that a second load is no longer accepted. It rests on the spec's decisions D27, D28 and, for the second load, on
the model's log 8. -/
def Obligations.LoadWritesTheImage : Prop :=
  ∀ (image other : List Byte) (s : State), s.boot = .awaitingLoad → image.length ≤ 3584 →
    ∃ t, hostLoad image s = t ∧
      (∀ k, (h : k < image.length) → t.byteAt (0x200 + k) = image[k]) ∧
      (∀ a, a < 0x200 ∨ 0x200 + image.length ≤ a → t.byteAt a = s.byteAt a) ∧
      t = { s with mem := t.mem, boot := .loaded } ∧ hostLoad other t = t

/-- R56, R251: after a load of more than 3584 bytes no tick is admitted, and a reset recovers the block. It rests
on the spec's decision D27; that the step stops by a fault of the model is log 7. -/
def Obligations.OversizeLoadAdmitsNoTick : Prop :=
  ∀ (image : List Byte) (s : State), s.boot = .awaitingLoad → 3584 < image.length →
    step (hostLoad image s) = .fault .startupAborted ∧
    (hostLoad image s).mem = s.mem ∧
    ∃ t, step (hostReset (hostLoad image s)) = .next t

/-! ## The tick (spec/40_execution_cycle.md) -/

/-- R52: the byte at pc is the high byte of the instruction word and the byte at pc + 1 the low byte. -/
def Obligations.FetchIsBigEndian : Prop :=
  ∀ s : State, s.pc.toNat + 1 ≤ 0xFFF →
    ∃ op : Word, op.toNat = 256 * (s.byteAt s.pc.toNat).toNat + (s.byteAt (s.pc.toNat + 1)).toNat ∧
      s.fetchBytes.map decode = some (.decoded (decodeWord op) [])

/-- R101: where the bytes at pc decode to an instruction, a step is exec of it, followed, unless it faulted, by
the sound sample, the timer decrement and the outputs, and by the end of the tick (log 1, log 6). -/
def Obligations.StepRunsDecodedInstruction : Prop :=
  ∀ (s : State) (i : Instr), s.canExecute →
    decode [s.byteAt s.pc.toNat, s.byteAt (s.pc.toNat + 1)] = .decoded i [] →
    i.wellFormed = true ∧ s.current = i ∧
    step s = match exec i s with
      | .next t => .next (if t.faulted then t else (t.sampleSound.decrementTimers).setOutputs i).closeTick
      | .fault r => .fault r
      | .refused r => .refused r

/-- An instruction word placed where the step fetches is the instruction the step runs; no other byte changes
(log 12). -/
def Obligations.PlacedWordIsExecuted : Prop :=
  ∀ (s : State) (w : Nat), s.canExecute → w < 2 ^ 16 →
    ∃ i, decodeTableWord 16 w = some i ∧ (s.withFetchWord 16 w).current = i ∧
      step (s.withFetchWord 16 w) = runInstr i (s.withFetchWord 16 w) ∧
      s.withFetchWord 16 w = { s with mem := (s.withFetchWord 16 w).mem } ∧
      ∀ a, a ≠ s.pc.toNat → a ≠ s.pc.toNat + 1 → (s.withFetchWord 16 w).byteAt a = s.byteAt a

/-- R103: should_draw is 1 after a tick that executed 00E0 or DXYN and 0 after any other tick. That a tick that
faults, or of a faulted block, is such another tick rests on the spec's decision D23. -/
def Obligations.ShouldDrawExactlyAfterDrawing : Prop :=
  ∀ s t : State, step s = .next t →
    (t.shouldDraw = true ↔
      (s.canExecute ∧ t.faulted = false ∧ (s.current = .cls ∨ ∃ x y n, s.current = .drw x y n)))

/-- R104: should_play_sound is 1 exactly when ST is 1 after the execute phase and before the decrement. It rests
on the spec's decision D17. -/
def Obligations.SoundFlagSamplesBeforeDecrement : Prop :=
  ∀ s u t : State, s.canExecute → exec s.current s = .next u → u.faulted = false → step s = .next t →
    (t.shouldPlaySound = true ↔ u.st.toNat = 1) ∧ (t.shouldPlaySound = true → t.st = 0)

/-- R105, with the spec's derived clause that the decrement applies to the values the execute phase left: each
timer is one less than that, and 0 stays 0; an instruction other than FX15 (FX18) leaves the timer's own value to
be decremented. -/
def Obligations.TimersCountDownEachTick : Prop :=
  ∀ s u t : State, s.canExecute → exec s.current s = .next u → u.faulted = false → step s = .next t →
    t.dt.toNat = u.dt.toNat - 1 ∧ t.st.toNat = u.st.toNat - 1 ∧
    ((∀ x, s.current ≠ .ldDT x) → t.dt.toNat = s.dt.toNat - 1) ∧
    ((∀ x, s.current ≠ .ldST x) → t.st.toNat = s.st.toNat - 1)

/-- R107: an Invalid word writes pc and nothing else, and its tick reports the word; the timers still count. -/
def Obligations.InvalidWordIsReportedAndSkipped : Prop :=
  (∀ (op : Word) (s : State), exec (.invalid op) s = .next { s with pc := s.pc + 2 }) ∧
  ∀ (op : Word) (s : State), s.canExecute → s.current = .invalid op →
    ∃ t, step s = .next t ∧ t.invalid = true ∧ t.invalidOpcode = op ∧ t.shouldDraw = false ∧ t.faulted = false ∧
      op.toNat = 256 * (s.byteAt s.pc.toNat).toNat + (s.byteAt (s.pc.toNat + 1)).toNat ∧
      t.dt.toNat = s.dt.toNat - 1 ∧ t.st.toNat = s.st.toNat - 1 ∧
      t = { s with pc := s.pc + 2, dt := t.dt, st := t.st, shouldDraw := false, invalid := true,
                   shouldPlaySound := s.st == 1, invalidOpcode := op,
                   inputs := t.inputs, tickIndex := t.tickIndex, boot := t.boot }

/-- A started block is never stopped: every number of ticks completes, whatever the program and the inputs, each
tick one instruction or a tick of a faulted block (R256). From log 9: the spec's faults are states, not stops. -/
def Obligations.StartedBlockNeverStops : Prop :=
  ∀ s : State, s.boot ≠ .loadRefused →
    ∀ n, ∃ t, Host.Core.run core n s = .next t ∧ t.tickIndex = s.tickIndex + n ∧ t.inputs = s.inputs.drop n

/-! ## Faults (spec/60_exceptions.md) -/

/-- R53, R234: a fetch whose word does not lie in the store raises FETCH_RANGE, code 1, and writes nothing else.
It rests on the spec's decisions D9, D21, D23. -/
def Obligations.FetchPastStoreFaults : Prop :=
  ∀ s : State, s.Safe → 0xFFF ≤ s.pc.toNat →
    ∃ t, step s = .next t ∧
      t = { s.afterFault 1 with inputs := t.inputs, tickIndex := t.tickIndex, boot := t.boot }

/-- R108: a tick of a faulted block writes no state element of the block, and its outputs read 0. It rests on the
spec's decision D23 and, for outputs that were not 0, on the model's log 10. -/
def Obligations.FaultedBlockDoesNothing : Prop :=
  ∀ s : State, s.boot ≠ .loadRefused → s.faulted = true →
    ∃ t, step s = .next t ∧
      t = { s with shouldDraw := false, shouldPlaySound := false, invalid := false, invalidOpcode := 0,
                   inputs := t.inputs, tickIndex := t.tickIndex, boot := t.boot } ∧
      (s.FaultCoherent → t = { s with inputs := t.inputs, tickIndex := t.tickIndex, boot := t.boot })

/-- R232: a tick that raises a fault, whatever the instruction, makes no change but FAULTED, FAULT_CODE and the
outputs. It rests on the spec's decision D23. -/
def Obligations.FaultsArePrecise : Prop :=
  ∀ s t : State, step s = .next t → s.faulted = false → t.faulted = true →
    ∃ k : FaultKind,
      t = { s.afterFault k.code with inputs := t.inputs, tickIndex := t.tickIndex, boot := t.boot }

/-- R231, R237: an instruction raises a fault exactly in the cases of the table, each with its code. It rests on
the spec's decisions D8, D9, D10, D16, D23, D24. -/
def Obligations.FaultsExactlyOnTheirCauses : Prop :=
  ∀ (i : Instr) (s : State), s.faulted = false → ∃ t, exec i s = .next t ∧
    (t.faulted = true ∧ t.faultCode = 2 ↔
      (∃ x, i = .ldB x ∧ s.index.toNat + 2 > 0xFFF) ∨
      (∃ x, (i = .storeRegs x ∨ i = .loadRegs x) ∧ s.index.toNat + x.toNat > 0xFFF) ∨
      (∃ x y n, i = .drw x y n ∧ 0 < n.toNat ∧ s.index.toNat + n.toNat - 1 > 0xFFF)) ∧
    (t.faulted = true ∧ t.faultCode = 3 ↔ ∃ nnn, i = .call nnn ∧ s.sp.val = 64) ∧
    (t.faulted = true ∧ t.faultCode = 4 ↔ i = .ret ∧ s.sp.val = 0) ∧
    (t.faulted = true ∧ t.faultCode = 5 ↔ ∃ x, (i = .skp x ∨ i = .sknp x) ∧ (s.reg x).toNat > 15) ∧
    (t.faulted = true ∧ t.faultCode = 6 ↔ ∃ x, i = .addI x ∧ s.index.toNat + (s.reg x).toNat > 0xFFFF) ∧
    (t.faulted = true → 2 ≤ t.faultCode.toNat ∧ t.faultCode.toNat ≤ 6)

/-! ## Control transfer (spec/41_control_flow.md) -/

/-- R121: 1NNN sets pc to NNN and changes nothing else. -/
def Obligations.JumpSetsPc : Prop :=
  ∀ (nnn : Addr12) (s : State), ∃ w : Word, w.toNat = nnn.toNat ∧ exec (.jp nnn) s = .next { s with pc := w }

/-- R122: 2NNN pushes p + 2 and jumps, or faults at SP = 64. It rests on the spec's decisions D7, D8. -/
def Obligations.CallPushesReturnAddress : Prop :=
  ∀ (nnn : Addr12) (s : State),
    (s.sp.val = 64 → exec (.call nnn) s = .next (s.afterFault 3)) ∧
    (s.sp.val < 64 → ∃ t, exec (.call nnn) s = .next t ∧
      t.pc.toNat = nnn.toNat ∧ t.sp.val = s.sp.val + 1 ∧
      (∀ k : Fin 64, t.stack[k] = if k.val = s.sp.val then s.pc + 2 else s.stack[k]) ∧
      t = { s with pc := t.pc, sp := t.sp, stack := t.stack })

/-- R120: 00EE pops the top entry into pc, or faults at SP = 0. It rests on the spec's decisions D7, D8. -/
def Obligations.ReturnPopsIntoPc : Prop :=
  ∀ s : State,
    (s.sp.val = 0 → exec .ret s = .next (s.afterFault 4)) ∧
    (∀ k : Fin 64, s.sp.val = k.val + 1 → ∃ t, exec .ret s = .next t ∧
      t.pc = s.stack[k] ∧ t.sp.val = k.val ∧ t = { s with pc := t.pc, sp := t.sp })

/-- R120, R122: a call and the return from it leave pc at the word after the call, SP as before and every other
stack entry as before. It rests on the spec's decision D7. -/
def Obligations.CallThenReturnComesBack : Prop :=
  ∀ (nnn : Addr12) (s : State), s.sp.val < 64 →
    ∃ t u, exec (.call nnn) s = .next t ∧ exec .ret t = .next u ∧
      (∀ k : Fin 64, k.val ≠ s.sp.val → u.stack[k] = s.stack[k]) ∧
      u = { s with pc := s.pc + 2, stack := u.stack }

/-- R123, R124: 3XNN and 4XNN skip the next word on the comparison of VX with NN and change only pc. -/
def Obligations.SkipsOnImmediate : Prop :=
  ∀ (x : Nibble) (nn : Byte) (s : State),
    exec (.seImm x nn) s = .next { s with pc := if (s.reg x).toNat = nn.toNat then s.pc + 4 else s.pc + 2 } ∧
    exec (.sneImm x nn) s = .next { s with pc := if (s.reg x).toNat ≠ nn.toNat then s.pc + 4 else s.pc + 2 }

/-- R125, R126: 5XY0 and 9XY0 skip the next word on the comparison of VX with VY and change only pc. -/
def Obligations.SkipsOnRegister : Prop :=
  ∀ (x y : Nibble) (s : State),
    exec (.seReg x y) s = .next { s with pc := if (s.reg x).toNat = (s.reg y).toNat then s.pc + 4 else s.pc + 2 } ∧
    exec (.sneReg x y) s = .next { s with pc := if (s.reg x).toNat ≠ (s.reg y).toNat then s.pc + 4 else s.pc + 2 }

/-- R127: BNNN sets pc to (V0 + NNN) mod 0x1000 and changes nothing else. It rests on the spec's decision D6. -/
def Obligations.JumpV0WrapsAtTwelveBits : Prop :=
  ∀ (nnn : Addr12) (s : State), ∃ w : Word, w.toNat = ((s.reg 0).toNat + nnn.toNat) % 0x1000 ∧
    exec (.jpV0 nnn) s = .next { s with pc := w }

/-! ## ALU (spec/42_alu.md) -/

/-- R142: 6XNN sets VX to NN, VF among them, and changes no other register. -/
def Obligations.LoadImmediateSetsRegister : Prop :=
  ∀ (x : Nibble) (nn : Byte) (s : State), ∃ t, exec (.ldImm x nn) s = .next t ∧
    (∀ k, t.reg k = if k = x then nn else s.reg k) ∧ t = { s with v := t.v, pc := s.pc + 2 }

/-- R143: 7XNN adds NN mod 256 and writes no flag. That VF is not written rests on the spec's decision D29. -/
def Obligations.AddImmediateWraps : Prop :=
  ∀ (x : Nibble) (nn : Byte) (s : State), ∃ t, exec (.addImm x nn) s = .next t ∧
    (t.reg x).toNat = ((s.reg x).toNat + nn.toNat) % 256 ∧
    (∀ k, k ≠ x → t.reg k = s.reg k) ∧ t = { s with v := t.v, pc := s.pc + 2 }

/-- R144 to R147: 8XY0 to 8XY3 set VX to b, a OR b, a AND b, a XOR b, bit by bit, and change no other register. -/
def Obligations.CopyAndLogicSetRegister : Prop :=
  ∀ (x y : Nibble) (s : State) (i : Instr) (f : Bool → Bool → Bool),
    (i, f) ∈ [(.ldReg x y, fun _ b => b), (.orReg x y, or), (.andReg x y, and), (.xorReg x y, xor)] →
    ∃ t, exec i s = .next t ∧
      (∀ j, j < 8 → (t.reg x).getLsbD j = f ((s.reg x).getLsbD j) ((s.reg y).getLsbD j)) ∧
      (∀ k, k ≠ x → t.reg k = s.reg k) ∧ t = { s with v := t.v, pc := s.pc + 2 }

/-- R148, R149, R151: the sum and the differences mod 256 with their flags. For X = 0xF the flag is what VF holds,
which rests on the spec's decision D4. -/
def Obligations.AddAndSubtractSetFlag : Prop :=
  ∀ (x y : Nibble) (s : State) (a b : Nat), (s.reg x).toNat = a → (s.reg y).toNat = b →
    (∃ t, exec (.addReg x y) s = .next t ∧ FlaggedResult s t x ((a + b) % 256) (a + b > 255)) ∧
    (∃ t, exec (.subReg x y) s = .next t ∧ FlaggedResult s t x ((a + 256 - b) % 256) (a ≥ b)) ∧
    (∃ t, exec (.subn x y) s = .next t ∧ FlaggedResult s t x ((b + 256 - a) % 256) (a ≤ b))

/-- R150, R152: the shifts by one bit with the flag from the value before the shift, whatever VY is; under the
default SHL_FLAG_MASK 0x08 the left shift's flag is old bit 3. It rests on the spec's decisions D4, D5, D30. -/
def Obligations.ShiftsSetFlag : Prop :=
  ∀ (x y : Nibble) (s : State) (a : Nat), (s.reg x).toNat = a →
    (∃ t, exec (.shr x y) s = .next t ∧ FlaggedResult s t x (a / 2) (a % 2 = 1)) ∧
    (∃ t, exec (.shl x y) s = .next t ∧
      FlaggedResult s t x (2 * a % 256) (s.reg x &&& s.params.shlFlagMask ≠ 0)) ∧
    (s.params.shlFlagMask = 0x08 →
      ∃ t, exec (.shl x y) s = .next t ∧ FlaggedResult s t x (2 * a % 256) (a / 8 % 2 = 1))

/-- R153: CXNN sets VX to NN AND the tick's random byte, the known one or a free value. It rests on the spec's
decision D3; where the byte comes from is log 1. -/
def Obligations.RandomAndImmediate : Prop :=
  ∀ (x : Nibble) (nn : Byte) (s : State),
    ∃ t r, exec (.rnd x nn) s = .next t ∧ r = ((s.inputs.head?.map TickInput.rnd).getD (Config.rndAt s.tickIndex)) ∧
      (∀ k, t.reg k = if k = x then nn &&& r else s.reg k) ∧ t = { s with v := t.v, pc := s.pc + 2 }

/-! ## Index register and memory (spec/43_index_memory.md) -/

/-- R170: ANNN sets I to NNN and changes nothing else but pc. -/
def Obligations.LoadIndexSetsI : Prop :=
  ∀ (nnn : Addr12) (s : State), ∃ w : Word, w.toNat = nnn.toNat ∧
    exec (.ldI nnn) s = .next { s with index := w, pc := s.pc + 2 }

/-- R171: FX1E adds VX to I exactly, VF = the sum is past 0xFFF, or faults where the sum does not fit 16 bits. It
rests on the spec's decisions D4, D10, D11. -/
def Obligations.AddIndexSetsFlag : Prop :=
  ∀ (x : Nibble) (s : State) (sum : Nat), sum = s.index.toNat + (s.reg x).toNat →
    (sum > 0xFFFF → exec (.addI x) s = .next (s.afterFault 6)) ∧
    (sum ≤ 0xFFFF → ∃ t, exec (.addI x) s = .next t ∧ t.index.toNat = sum ∧
      (∀ k, t.reg k = if k = 0xF then (if sum > 0xFFF then 1 else 0) else s.reg k) ∧
      t = { s with v := t.v, index := t.index, pc := s.pc + 2 })

/-- R173: FX29 sets I to VX * 5, exactly. It rests on the spec's decision D12. -/
def Obligations.FontAddressIsFiveTimes : Prop :=
  ∀ (x : Nibble) (s : State), ∃ w : Word, w.toNat = (s.reg x).toNat * 5 ∧
    exec (.ldF x) s = .next { s with index := w, pc := s.pc + 2 }

/-- R174: FX33 stores the hundreds at I, the tens at I + 1, the ones at I + 2 and no other byte, or faults where
I + 2 > 0xFFF. It rests on the spec's decisions D9, D13. -/
def Obligations.BcdStoresDigits : Prop :=
  ∀ (x : Nibble) (s : State) (i a : Nat), i = s.index.toNat → a = (s.reg x).toNat →
    (i + 2 > 0xFFF → exec (.ldB x) s = .next (s.afterFault 2)) ∧
    (i + 2 ≤ 0xFFF → ∃ t, exec (.ldB x) s = .next t ∧
      (t.byteAt i).toNat = a / 100 ∧ (t.byteAt (i + 1)).toNat < 10 ∧ (t.byteAt (i + 2)).toNat < 10 ∧
      100 * (t.byteAt i).toNat + 10 * (t.byteAt (i + 1)).toNat + (t.byteAt (i + 2)).toNat = a ∧
      (∀ c, c < i ∨ i + 2 < c → t.byteAt c = s.byteAt c) ∧
      t = { s with mem := t.mem, pc := s.pc + 2 })

/-- R175: FX55 stores V0..VX at I..I+X and no other byte, and I advances by X + 1, or faults where I + X > 0xFFF.
It rests on the spec's decisions D9, D14. -/
def Obligations.DumpStoresRegisters : Prop :=
  ∀ (x : Nibble) (s : State) (i : Nat), i = s.index.toNat →
    (i + x.toNat > 0xFFF → exec (.storeRegs x) s = .next (s.afterFault 2)) ∧
    (i + x.toNat ≤ 0xFFF → ∃ t, exec (.storeRegs x) s = .next t ∧
      (∀ k : Nibble, k.toNat ≤ x.toNat → t.byteAt (i + k.toNat) = s.reg k) ∧
      (∀ c, c < i ∨ i + x.toNat < c → t.byteAt c = s.byteAt c) ∧
      t.index.toNat = i + x.toNat + 1 ∧ t = { s with mem := t.mem, index := t.index, pc := s.pc + 2 })

/-- R176: FX65 loads V0..VX from I..I+X, leaves the registers above X, and I advances by X + 1, or faults where
I + X > 0xFFF. It rests on the spec's decisions D9, D14. -/
def Obligations.LoadFillsRegisters : Prop :=
  ∀ (x : Nibble) (s : State) (i : Nat), i = s.index.toNat →
    (i + x.toNat > 0xFFF → exec (.loadRegs x) s = .next (s.afterFault 2)) ∧
    (i + x.toNat ≤ 0xFFF → ∃ t, exec (.loadRegs x) s = .next t ∧
      (∀ k : Nibble, t.reg k = if k.toNat ≤ x.toNat then s.byteAt (i + k.toNat) else s.reg k) ∧
      t.index.toNat = i + x.toNat + 1 ∧ t = { s with v := t.v, index := t.index, pc := s.pc + 2 })

/-- R175, R176: what FX55 stored, FX65 from the same I brings back, whatever the registers held in between. It
rests on the spec's decision D14. -/
def Obligations.LoadUndoesDump : Prop :=
  ∀ (x : Nibble) (s : State) (w : Vector Byte 16), s.index.toNat + x.toNat ≤ 0xFFF →
    ∃ t u, exec (.storeRegs x) s = .next t ∧
      exec (.loadRegs x) { t with index := s.index, v := w } = .next u ∧
      ∀ k : Nibble, u.reg k = if k.toNat ≤ x.toNat then s.reg k else w[k.toNat]'k.isLt

/-- R64: a store is seen by the next fetch: a dump over the next word makes V0 and V1 the bytes fetched next. -/
def Obligations.StoreIsSeenByNextFetch : Prop :=
  ∀ (x : Nibble) (s : State), 1 ≤ x.toNat → s.index.toNat + x.toNat ≤ 0xFFF →
    s.index.toNat = s.pc.toNat + 2 →
    ∃ t, exec (.storeRegs x) s = .next t ∧ t.fetchBytes = some [s.reg 0, s.reg 1]

/-! ## Display (spec/44_display.md) -/

/-- R190: 00E0 makes every pixel 0 and changes nothing else but pc. That pc advances by 2 rests on the spec's
decision D32. -/
def Obligations.ClearScreenZeroesPixels : Prop :=
  ∀ s : State, ∃ t, exec .cls s = .next t ∧ (∀ x y, t.fb.pixel x y = false) ∧
    t = { s with fb := t.fb, pc := s.pc + 2 }

/-- R191, R192: a draw turns over exactly the pixels under a set sprite bit, with wraparound, VF tells whether a
pixel went from 1 to 0, and nothing else changes but pc; a sprite past the store faults. It rests on the spec's
decisions D4, D9 and on its derived remark that no pixel is touched twice. -/
def Obligations.DrawTurnsOverCoveredPixels : Prop :=
  ∀ (x y n : Nibble) (s : State),
    (0 < n.toNat ∧ s.index.toNat + n.toNat - 1 > 0xFFF → exec (.drw x y n) s = .next (s.afterFault 2)) ∧
    (n.toNat = 0 ∨ s.index.toNat + n.toNat - 1 ≤ 0xFFF → ∃ t, exec (.drw x y n) s = .next t ∧
      (∀ px py, SpriteCovers s (s.reg x) (s.reg y) n px py → t.fb.pixel px py = !s.fb.pixel px py) ∧
      (∀ px py, ¬ SpriteCovers s (s.reg x) (s.reg y) n px py → t.fb.pixel px py = s.fb.pixel px py) ∧
      ((∃ px py, s.fb.pixel px py = true ∧ t.fb.pixel px py = false) → t.reg 0xF = 1) ∧
      ((∀ px py, s.fb.pixel px py = true → t.fb.pixel px py = true) → t.reg 0xF = 0) ∧
      (∀ k, k ≠ 0xF → t.reg k = s.reg k) ∧
      t = { s with v := t.v, fb := t.fb, pc := s.pc + 2 })

/-- R193: drawing the same sprite twice at the same place restores the framebuffer, and the second draw reports a
collision exactly when the first turned a pixel on. The registers are as before the first draw, so that VX and VY
are unchanged for every X and Y. The spec marks the rule as derived from R191. -/
def Obligations.DrawTwiceRestores : Prop :=
  ∀ (x y n : Nibble) (s : State), n.toNat = 0 ∨ s.index.toNat + n.toNat - 1 ≤ 0xFFF →
    ∃ t u, exec (.drw x y n) s = .next t ∧ exec (.drw x y n) { t with v := s.v } = .next u ∧
      u.fb = s.fb ∧
      (u.reg 0xF = 1 ↔ ∃ px py, s.fb.pixel px py = false ∧ t.fb.pixel px py = true)

/-! ## Timers and keys (spec/45_timers_keys.md) -/

/-- R210, R211, R212: FX07 reads DT, FX15 writes it, FX18 writes ST; the decrement of the same tick comes after
(TimersCountDownEachTick). -/
def Obligations.TimerInstructionsMoveBytes : Prop :=
  ∀ (x : Nibble) (s : State),
    (∃ t, exec (.ldVxDT x) s = .next t ∧ (∀ k, t.reg k = if k = x then s.dt else s.reg k) ∧
      t = { s with v := t.v, pc := s.pc + 2 }) ∧
    exec (.ldDT x) s = .next { s with dt := s.reg x, pc := s.pc + 2 } ∧
    exec (.ldST x) s = .next { s with st := s.reg x, pc := s.pc + 2 }

/-- R213, R214, R216: EX9E and EXA1 skip on the key VX names, or fault where VX > 15. It rests on the spec's
decision D16; where the snapshot comes from is log 1. -/
def Obligations.KeySkipsTestOneKey : Prop :=
  ∀ (x : Nibble) (s : State) (keys : Word),
    keys = ((s.inputs.head?.map TickInput.keys).getD (Config.keysAt s.tickIndex)) →
    ((s.reg x).toNat > 15 →
      exec (.skp x) s = .next (s.afterFault 5) ∧ exec (.sknp x) s = .next (s.afterFault 5)) ∧
    ((s.reg x).toNat ≤ 15 →
      exec (.skp x) s =
        .next { s with pc := if keys.getLsbD (s.reg x).toNat then s.pc + 4 else s.pc + 2 } ∧
      exec (.sknp x) s =
        .next { s with pc := if keys.getLsbD (s.reg x).toNat then s.pc + 2 else s.pc + 4 })

/-- R215: FX0A with no key pressed changes nothing; with one pressed it writes a pressed key's number, under the
default KEY_SELECT the lowest, to VX. It rests on the spec's decision D15; another policy is log 5. -/
def Obligations.KeyPollTakesPressedKey : Prop :=
  ∀ (x : Nibble) (s : State),
    (s.keys = 0 → exec (.ldVxK x) s = .next s) ∧
    (s.keys ≠ 0 → ∃ t key, exec (.ldVxK x) s = .next t ∧ key < 16 ∧ s.keys.getLsbD key = true ∧
      (s.params.keySelect = .lowestPressed → ∀ j, j < key → s.keys.getLsbD j = false) ∧
      (∀ k, (t.reg k).toNat = if k = x then key else (s.reg k).toNat) ∧
      t = { s with v := t.v, pc := s.pc + 2 })

/-! ## Rules of the whole machine -/

/-- R27: only 2NNN and 00EE write SP or a stack entry. -/
def Obligations.OnlyCallAndReturnWriteStack : Prop :=
  ∀ s t : State, step s = .next t → t.sp ≠ s.sp ∨ t.stack ≠ s.stack →
    s.canExecute ∧ (s.current = .ret ∨ ∃ nnn, s.current = .call nnn)

/-- R32: only 00E0 and DXYN write the framebuffer. -/
def Obligations.OnlyClearAndDrawWritePixels : Prop :=
  ∀ s t : State, step s = .next t → t.fb ≠ s.fb →
    s.canExecute ∧ (s.current = .cls ∨ ∃ x y n, s.current = .drw x y n)

/-- R50: while the block runs, only FX33 and FX55 write the store. -/
def Obligations.OnlyBcdAndDumpWriteMemory : Prop :=
  ∀ s t : State, step s = .next t → t.mem ≠ s.mem →
    s.canExecute ∧ ((∃ x, s.current = .ldB x) ∨ ∃ x, s.current = .storeRegs x)

/-- R25: only ANNN, FX1E, FX29, FX55 and FX65 write I. -/
def Obligations.OnlyFiveInstructionsWriteIndex : Prop :=
  ∀ s t : State, step s = .next t → t.index ≠ s.index →
    s.canExecute ∧ ((∃ nnn, s.current = .ldI nnn) ∨ (∃ x, s.current = .addI x) ∨ (∃ x, s.current = .ldF x) ∨
      (∃ x, s.current = .storeRegs x) ∨ ∃ x, s.current = .loadRegs x)

/-- R21: VF changes only by a flag instruction or as the destination an instruction names; a flag instruction that
does not fault leaves 0 or 1 in it. The order of the two writes rests on the spec's decision D4. -/
def Obligations.FlagWritersOfVF : Prop :=
  ∀ s t : State, step s = .next t →
    (t.reg 0xF ≠ s.reg 0xF → s.canExecute ∧ (writesFlag s.current = true ∨ destinationVF s.current = true)) ∧
    (s.canExecute → t.faulted = false → writesFlag s.current = true → t.reg 0xF = 0 ∨ t.reg 0xF = 1)

/-- R244: the key snapshot reaches only EX9E, EXA1 and FX0A, the random byte only CXNN: with other inputs, any other
instruction does the same. Where the inputs stand is the model's log 1. -/
def Obligations.InputsReachOnlyTheirInstructions : Prop :=
  ∀ (i : Instr) (s t : State) (l : List TickInput) (n : Nat), exec i s = .next t →
    ((∀ x, i ≠ .skp x ∧ i ≠ .sknp x ∧ i ≠ .ldVxK x) ∨ State.keys { s with inputs := l, tickIndex := n } = s.keys) →
    ((∀ x nn, i ≠ .rnd x nn) ∨ State.rnd { s with inputs := l, tickIndex := n } = s.rnd) →
    exec i { s with inputs := l, tickIndex := n } = .next { t with inputs := l, tickIndex := n }

/-- The parameters are the machine's for good: no tick and nothing the host does changes them (log 3, log 19). -/
def Obligations.ParametersNeverChange : Prop :=
  (∀ s t : State, step s = .next t → t.params = s.params) ∧
  (∀ s : State, (hostReset s).params = s.params) ∧
  ∀ (image : List Byte) (s : State), (hostLoad image s).params = s.params

/-- The invariant is kept by every step: the memory stays canonical and inside the store (R50), FAULTED and
FAULT_CODE agree and a faulted block's outputs read 0 (R39, R108), an Invalid report holds a word of the Invalid
space (R76), and pc stays at most 0x1002 and stack entries at most 0x1000 (R106). -/
def Obligations.StepKeepsInvariant : Prop :=
  ∀ s t : State, s.Inv → step s = .next t → t.Inv

/-- The invariant is kept by what the host does between ticks. -/
def Obligations.HostMovesKeepInvariant : Prop :=
  ∀ (image : List Byte) (s : State), s.Inv → (hostLoad image s).Inv ∧ (hostReset s).Inv

/-- The invariant holds right after reset. -/
def Obligations.ResetHasInvariant : Prop := State.reset.Inv
end

