-- ==== Sys2Proof/Laws/Encoding.lean ====
section
/-! SUPPORT. The fields of a word as numbers, the words the encoder builds, and the fixed bits of a row as fields. -/

namespace Sys2Proof

/-! ## Fields as numbers (R71) -/

theorem fieldT_toNat (op : Word) : (fieldT op).toNat = op.toNat / 4096 := by
  have := op.isLt
  simp only [fieldT, BitVec.extractLsb'_toNat, Nat.shiftRight_eq_div_pow]
  omega

theorem fieldX_toNat (op : Word) : (fieldX op).toNat = op.toNat / 256 % 16 := by
  simp [fieldX, BitVec.extractLsb'_toNat, Nat.shiftRight_eq_div_pow]

theorem fieldY_toNat (op : Word) : (fieldY op).toNat = op.toNat / 16 % 16 := by
  simp [fieldY, BitVec.extractLsb'_toNat, Nat.shiftRight_eq_div_pow]

theorem fieldN_toNat (op : Word) : (fieldN op).toNat = op.toNat % 16 := by
  simp [fieldN, BitVec.extractLsb'_toNat]

theorem fieldNN_toNat (op : Word) : (fieldNN op).toNat = op.toNat % 256 := by
  simp [fieldNN, BitVec.extractLsb'_toNat]

theorem fieldNNN_toNat (op : Word) : (fieldNNN op).toNat = op.toNat % 4096 := by
  simp [fieldNNN, BitVec.extractLsb'_toNat]

/-! ## Built words as numbers -/

theorem append_toNat {v w : Nat} (a : BitVec v) (b : BitVec w) :
    (a ++ b).toNat = a.toNat * 2 ^ w + b.toNat := by
  rw [BitVec.toNat_append, ← Nat.shiftLeft_add_eq_or_of_lt b.isLt, Nat.shiftLeft_eq]

theorem wordNNN_toNat (t : Nibble) (nnn : Addr12) : (wordNNN t nnn).toNat = t.toNat * 4096 + nnn.toNat :=
  append_toNat t nnn

theorem wordXNN_toNat (t x : Nibble) (nn : Byte) :
    (wordXNN t x nn).toNat = (t.toNat * 16 + x.toNat) * 256 + nn.toNat := by
  have h := append_toNat (t ++ x) nn
  rwa [append_toNat t x] at h

theorem wordXYN_toNat (t x y n : Nibble) :
    (wordXYN t x y n).toNat = ((t.toNat * 16 + x.toNat) * 16 + y.toNat) * 16 + n.toNat := by
  have h := append_toNat ((t ++ x) ++ y) n
  rwa [append_toNat (t ++ x) y, append_toNat t x] at h

/-- The word of two bytes, the first the high byte (R52). -/
theorem wordOfBytes_toNat (hi lo : Byte) : (wordOfBytes hi lo).toNat = 256 * hi.toNat + lo.toNat := by
  have h := append_toNat hi lo
  rw [Nat.mul_comm] at h
  exact h

theorem highByte_toNat (w : Word) : (highByte w).toNat = w.toNat / 256 := by
  have := w.isLt
  simp only [highByte, BitVec.extractLsb'_toNat, Nat.shiftRight_eq_div_pow]
  omega

theorem lowByte_toNat (w : Word) : (lowByte w).toNat = w.toNat % 256 := by
  simp [lowByte, BitVec.extractLsb'_toNat]

/-! ## Fields of a built word -/

@[simp] theorem fieldT_wordNNN (t : Nibble) (nnn : Addr12) : fieldT (wordNNN t nnn) = t := by
  apply BitVec.eq_of_toNat_eq
  rw [fieldT_toNat, wordNNN_toNat]; omega

@[simp] theorem fieldNNN_wordNNN (t : Nibble) (nnn : Addr12) : fieldNNN (wordNNN t nnn) = nnn := by
  apply BitVec.eq_of_toNat_eq
  rw [fieldNNN_toNat, wordNNN_toNat]; omega

@[simp] theorem fieldT_wordXNN (t x : Nibble) (nn : Byte) : fieldT (wordXNN t x nn) = t := by
  apply BitVec.eq_of_toNat_eq
  rw [fieldT_toNat, wordXNN_toNat]; omega

@[simp] theorem fieldX_wordXNN (t x : Nibble) (nn : Byte) : fieldX (wordXNN t x nn) = x := by
  apply BitVec.eq_of_toNat_eq
  rw [fieldX_toNat, wordXNN_toNat]; omega

@[simp] theorem fieldNN_wordXNN (t x : Nibble) (nn : Byte) : fieldNN (wordXNN t x nn) = nn := by
  apply BitVec.eq_of_toNat_eq
  rw [fieldNN_toNat, wordXNN_toNat]; omega

@[simp] theorem fieldT_wordXYN (t x y n : Nibble) : fieldT (wordXYN t x y n) = t := by
  apply BitVec.eq_of_toNat_eq
  rw [fieldT_toNat, wordXYN_toNat]; omega

@[simp] theorem fieldX_wordXYN (t x y n : Nibble) : fieldX (wordXYN t x y n) = x := by
  apply BitVec.eq_of_toNat_eq
  rw [fieldX_toNat, wordXYN_toNat]; omega

@[simp] theorem fieldY_wordXYN (t x y n : Nibble) : fieldY (wordXYN t x y n) = y := by
  apply BitVec.eq_of_toNat_eq
  rw [fieldY_toNat, wordXYN_toNat]; omega

@[simp] theorem fieldN_wordXYN (t x y n : Nibble) : fieldN (wordXYN t x y n) = n := by
  apply BitVec.eq_of_toNat_eq
  rw [fieldN_toNat, wordXYN_toNat]; omega

/-! ## A word is its fields -/

theorem wordNNN_fields (op : Word) : wordNNN (fieldT op) (fieldNNN op) = op := by
  apply BitVec.eq_of_toNat_eq
  rw [wordNNN_toNat, fieldT_toNat, fieldNNN_toNat]; omega

theorem wordXNN_fields (op : Word) : wordXNN (fieldT op) (fieldX op) (fieldNN op) = op := by
  apply BitVec.eq_of_toNat_eq
  rw [wordXNN_toNat, fieldT_toNat, fieldX_toNat, fieldNN_toNat]; omega

theorem wordXYN_fields (op : Word) : wordXYN (fieldT op) (fieldX op) (fieldY op) (fieldN op) = op := by
  apply BitVec.eq_of_toNat_eq
  rw [wordXYN_toNat, fieldT_toNat, fieldX_toNat, fieldY_toNat, fieldN_toNat]; omega

/-- The two bytes of a word make the word again, high byte first (R52). -/
@[simp] theorem wordOfBytes_bytes (w : Word) : wordOfBytes (highByte w) (lowByte w) = w := by
  apply BitVec.eq_of_toNat_eq
  rw [wordOfBytes_toNat, highByte_toNat, lowByte_toNat]; omega

/-! ## The fixed bits of a row are fields (R72) -/

theorem wordNNN_getElem (t : Nibble) (nnn : Addr12) (i : Nat) (h : i < 16) :
    (wordNNN t nnn)[i] = if h' : i < 12 then nnn[i] else t[i - 12] :=
  BitVec.getElem_append (x := t) (y := nnn) h

theorem wordXNN_getElem (t x : Nibble) (nn : Byte) (i : Nat) (h : i < 16) :
    (wordXNN t x nn)[i] =
      if h' : i < 8 then nn[i] else if h'' : i < 12 then x[i - 8] else t[i - 12] := by
  refine (BitVec.getElem_append (x := t ++ x) (y := nn) h).trans ?_
  split
  · rfl
  · refine (BitVec.getElem_append (x := t) (y := x) (by omega)).trans ?_
    split <;> split <;> first | rfl | omega

theorem wordXYN_getElem (t x y n : Nibble) (i : Nat) (h : i < 16) :
    (wordXYN t x y n)[i] =
      if h1 : i < 4 then n[i] else if h2 : i < 8 then y[i - 4] else
      if h3 : i < 12 then x[i - 8] else t[i - 12] := by
  refine (BitVec.getElem_append (x := (t ++ x) ++ y) (y := n) h).trans ?_
  split
  · rfl
  · refine (BitVec.getElem_append (x := t ++ x) (y := y) (by omega)).trans ?_
    split
    · split <;> first | rfl | omega
    · refine (BitVec.getElem_append (x := t) (y := x) (by omega)).trans ?_
      split <;> split <;> first | omega | (split <;> first | rfl | omega)

/-- Masking with 0xF000 leaves T. -/
theorem and_maskT (op : Word) : op &&& 0xF000 = wordNNN (fieldT op) 0 := by
  apply BitVec.eq_of_getLsbD_eq
  intro i hi
  interval_cases i <;> simp [wordNNN_getElem, fieldT]

/-- Masking with 0xF00F leaves T and N. -/
theorem and_maskTN (op : Word) : op &&& 0xF00F = wordXYN (fieldT op) 0 0 (fieldN op) := by
  apply BitVec.eq_of_getLsbD_eq
  intro i hi
  interval_cases i <;> simp [wordXYN_getElem, fieldT, fieldN]

/-- Masking with 0xF0FF leaves T and NN. -/
theorem and_maskTNN (op : Word) : op &&& 0xF0FF = wordXNN (fieldT op) 0 (fieldNN op) := by
  apply BitVec.eq_of_getLsbD_eq
  intro i hi
  interval_cases i <;> simp [wordXNN_getElem, fieldT, fieldNN]

/-- A row that fixes T alone takes a word exactly when T agrees (R72). -/
theorem accepts_maskT (t : Nibble) (op : Word) :
    Pattern.accepts ⟨0xF000, wordNNN t 0⟩ op = true ↔ fieldT op = t := by
  simp only [Pattern.accepts, beq_iff_eq, and_maskT]
  exact ⟨fun h => by simpa using congrArg fieldT h, fun h => by rw [h]⟩

/-- A row that fixes T and N takes a word exactly when both agree (R72). -/
theorem accepts_maskTN (t n : Nibble) (op : Word) :
    Pattern.accepts ⟨0xF00F, wordXYN t 0 0 n⟩ op = true ↔ fieldT op = t ∧ fieldN op = n := by
  simp only [Pattern.accepts, beq_iff_eq, and_maskTN]
  exact ⟨fun h => ⟨by simpa using congrArg fieldT h, by simpa using congrArg fieldN h⟩,
    fun h => by rw [h.1, h.2]⟩

/-- A row that fixes T and NN takes a word exactly when both agree (R72). -/
theorem accepts_maskTNN (t : Nibble) (nn : Byte) (op : Word) :
    Pattern.accepts ⟨0xF0FF, wordXNN t 0 nn⟩ op = true ↔ fieldT op = t ∧ fieldNN op = nn := by
  simp only [Pattern.accepts, beq_iff_eq, and_maskTNN]
  exact ⟨fun h => ⟨by simpa using congrArg fieldT h, by simpa using congrArg fieldNN h⟩,
    fun h => by rw [h.1, h.2]⟩

end Sys2Proof
end

