-- ==== Sys2Proof/Laws/Decoding.lean ====
section
/-! SUPPORT. The decode procedure class by class: what decodeWord is for each top nibble (spec/30_encoding.md R73). -/

namespace Sys2Proof

/-- A nibble is one of sixteen. -/
theorem nibble_cases (t : Nibble) :
    t = 0x0 ∨ t = 0x1 ∨ t = 0x2 ∨ t = 0x3 ∨ t = 0x4 ∨ t = 0x5 ∨ t = 0x6 ∨ t = 0x7 ∨
    t = 0x8 ∨ t = 0x9 ∨ t = 0xA ∨ t = 0xB ∨ t = 0xC ∨ t = 0xD ∨ t = 0xE ∨ t = 0xF := by
  revert t; decide

variable {op : Word}

theorem decodeWord_T0 (h : fieldT op = 0x0) : decodeWord op = decode0 op := by
  simp [decodeWord, h]

theorem decodeWord_T1 (h : fieldT op = 0x1) : decodeWord op = .jp (fieldNNN op) := by
  simp [decodeWord, h]

theorem decodeWord_T2 (h : fieldT op = 0x2) : decodeWord op = .call (fieldNNN op) := by
  simp [decodeWord, h]

theorem decodeWord_T3 (h : fieldT op = 0x3) : decodeWord op = .seImm (fieldX op) (fieldNN op) := by
  simp [decodeWord, h]

theorem decodeWord_T4 (h : fieldT op = 0x4) : decodeWord op = .sneImm (fieldX op) (fieldNN op) := by
  simp [decodeWord, h]

theorem decodeWord_T5 (h : fieldT op = 0x5) : decodeWord op = (if fieldN op = 0 then .seReg (fieldX op) (fieldY op) else .invalid op) := by
  simp [decodeWord, h]

theorem decodeWord_T6 (h : fieldT op = 0x6) : decodeWord op = .ldImm (fieldX op) (fieldNN op) := by
  simp [decodeWord, h]

theorem decodeWord_T7 (h : fieldT op = 0x7) : decodeWord op = .addImm (fieldX op) (fieldNN op) := by
  simp [decodeWord, h]

theorem decodeWord_T8 (h : fieldT op = 0x8) : decodeWord op = decode8 op := by
  simp [decodeWord, h]

theorem decodeWord_T9 (h : fieldT op = 0x9) : decodeWord op = (if fieldN op = 0 then .sneReg (fieldX op) (fieldY op) else .invalid op) := by
  simp [decodeWord, h]

theorem decodeWord_TA (h : fieldT op = 0xA) : decodeWord op = .ldI (fieldNNN op) := by
  simp [decodeWord, h]

theorem decodeWord_TB (h : fieldT op = 0xB) : decodeWord op = .jpV0 (fieldNNN op) := by
  simp [decodeWord, h]

theorem decodeWord_TC (h : fieldT op = 0xC) : decodeWord op = .rnd (fieldX op) (fieldNN op) := by
  simp [decodeWord, h]

theorem decodeWord_TD (h : fieldT op = 0xD) : decodeWord op = .drw (fieldX op) (fieldY op) (fieldN op) := by
  simp [decodeWord, h]

theorem decodeWord_TE (h : fieldT op = 0xE) : decodeWord op = decodeE op := by
  simp [decodeWord, h]

theorem decodeWord_TF (h : fieldT op = 0xF) : decodeWord op = decodeF op := by
  simp [decodeWord, h]

/-- The class of a word: its top nibble, and what the procedure then does (R73). -/
theorem decodeWord_cases (op : Word) :
    (fieldT op = 0x0 ∧ decodeWord op = decode0 op) ∨
    (fieldT op = 0x1 ∧ decodeWord op = .jp (fieldNNN op)) ∨
    (fieldT op = 0x2 ∧ decodeWord op = .call (fieldNNN op)) ∨
    (fieldT op = 0x3 ∧ decodeWord op = .seImm (fieldX op) (fieldNN op)) ∨
    (fieldT op = 0x4 ∧ decodeWord op = .sneImm (fieldX op) (fieldNN op)) ∨
    (fieldT op = 0x5 ∧ decodeWord op = (if fieldN op = 0 then .seReg (fieldX op) (fieldY op) else .invalid op)) ∨
    (fieldT op = 0x6 ∧ decodeWord op = .ldImm (fieldX op) (fieldNN op)) ∨
    (fieldT op = 0x7 ∧ decodeWord op = .addImm (fieldX op) (fieldNN op)) ∨
    (fieldT op = 0x8 ∧ decodeWord op = decode8 op) ∨
    (fieldT op = 0x9 ∧ decodeWord op = (if fieldN op = 0 then .sneReg (fieldX op) (fieldY op) else .invalid op)) ∨
    (fieldT op = 0xA ∧ decodeWord op = .ldI (fieldNNN op)) ∨
    (fieldT op = 0xB ∧ decodeWord op = .jpV0 (fieldNNN op)) ∨
    (fieldT op = 0xC ∧ decodeWord op = .rnd (fieldX op) (fieldNN op)) ∨
    (fieldT op = 0xD ∧ decodeWord op = .drw (fieldX op) (fieldY op) (fieldN op)) ∨
    (fieldT op = 0xE ∧ decodeWord op = decodeE op) ∨
    (fieldT op = 0xF ∧ decodeWord op = decodeF op) := by
  rcases nibble_cases (fieldT op) with h | h | h | h | h | h | h | h | h | h | h | h | h | h | h | h
  · exact .inl ⟨h, decodeWord_T0 h⟩
  · exact .inr (.inl ⟨h, decodeWord_T1 h⟩)
  · exact .inr (.inr (.inl ⟨h, decodeWord_T2 h⟩))
  · exact .inr (.inr (.inr (.inl ⟨h, decodeWord_T3 h⟩)))
  · exact .inr (.inr (.inr (.inr (.inl ⟨h, decodeWord_T4 h⟩))))
  · exact .inr (.inr (.inr (.inr (.inr (.inl ⟨h, decodeWord_T5 h⟩)))))
  · exact .inr (.inr (.inr (.inr (.inr (.inr (.inl ⟨h, decodeWord_T6 h⟩))))))
  · exact .inr (.inr (.inr (.inr (.inr (.inr (.inr (.inl ⟨h, decodeWord_T7 h⟩)))))))
  · exact .inr (.inr (.inr (.inr (.inr (.inr (.inr (.inr (.inl ⟨h, decodeWord_T8 h⟩))))))))
  · exact .inr (.inr (.inr (.inr (.inr (.inr (.inr (.inr (.inr (.inl ⟨h, decodeWord_T9 h⟩)))))))))
  · exact .inr (.inr (.inr (.inr (.inr (.inr (.inr (.inr (.inr (.inr (.inl ⟨h, decodeWord_TA h⟩))))))))))
  · exact .inr (.inr (.inr (.inr (.inr (.inr (.inr (.inr (.inr (.inr (.inr (.inl ⟨h, decodeWord_TB h⟩)))))))))))
  · exact .inr (.inr (.inr (.inr (.inr (.inr (.inr (.inr (.inr (.inr (.inr (.inr (.inl ⟨h, decodeWord_TC h⟩))))))))))))
  · exact .inr (.inr (.inr (.inr (.inr (.inr (.inr (.inr (.inr (.inr (.inr (.inr (.inr (.inl ⟨h, decodeWord_TD h⟩)))))))))))))
  · exact .inr (.inr (.inr (.inr (.inr (.inr (.inr (.inr (.inr (.inr (.inr (.inr (.inr (.inr (.inl ⟨h, decodeWord_TE h⟩))))))))))))))
  · exact .inr (.inr (.inr (.inr (.inr (.inr (.inr (.inr (.inr (.inr (.inr (.inr (.inr (.inr (.inr (⟨h, decodeWord_TF h⟩)))))))))))))))

end Sys2Proof
end

