-- ==== Sys2Proof/Laws/Memory.lean ====
section
/-! SUPPORT. The laws of the memory operations: reading after writing, and the canonical form. -/

namespace Sys2Proof.Machine

/-! ## Reading after writing, in any memory -/

theorem Memory.read_unlist (m : Memory) (a k : Nat) :
    Memory.read (m.unlist a) k = if k = a then unlisted a else m.read k := by
  induction m with
  | nil => by_cases hk : k = a <;> simp [Memory.unlist, Memory.read, hk]
  | cons e m ih =>
    obtain ⟨q, c⟩ := e
    by_cases hq : q = a <;> by_cases hk : k = a <;> simp_all [Memory.unlist, Memory.read]
    all_goals intros; omega

theorem Memory.read_list (m : Memory) (a : Nat) (b : Byte) (k : Nat) (h : ∀ e ∈ m, e.1 ≠ a) :
    Memory.read (m.list a b) k = if k = a then b else m.read k := by
  induction m with
  | nil => simp [Memory.list, Memory.read, eq_comm]
  | cons e m ih =>
    obtain ⟨q, c⟩ := e
    have hq : q ≠ a := h _ List.mem_cons_self
    have ih := ih fun e he => h e (List.mem_cons_of_mem _ he)
    by_cases hlt : a < q
    · simp [Memory.list, hlt, Memory.read, eq_comm]
    · by_cases hk : k = a
      · subst hk; simp [Memory.list, hlt, Memory.read, hq, ih]
      · simp [Memory.list, hlt, Memory.read, ih, hk]

theorem Memory.ne_of_mem_unlist (m : Memory) (a : Nat) : ∀ e ∈ m.unlist a, e.1 ≠ a := by
  induction m with
  | nil => simp [Memory.unlist]
  | cons e m ih =>
    obtain ⟨q, c⟩ := e
    by_cases hq : q = a
    · simpa [Memory.unlist, hq] using ih
    · intro e he
      rw [Memory.unlist, if_neg hq, List.mem_cons] at he
      rcases he with rfl | he
      · exact hq
      · exact ih e he

/-- A read after a write: the byte written at its address, and every other address as before. -/
theorem Memory.read_write (m : Memory) (a : Nat) (b : Byte) (k : Nat) :
    Memory.read (m.write a b) k = if k = a then b else m.read k := by
  unfold Memory.write
  split
  · next hb => rw [Memory.read_unlist, ← hb]
  · rw [Memory.read_list _ _ _ _ (Memory.ne_of_mem_unlist m a), Memory.read_unlist]
    split <;> rfl

/-- Reading after writing bytes: the bytes in their places, every other address as before. -/
theorem Memory.read_writeBytes (m : Memory) (a : Nat) (bs : List Byte) (k : Nat) :
    Memory.read (m.writeBytes a bs) k =
      if hk : a ≤ k ∧ k - a < bs.length then bs[k - a]'hk.2 else m.read k := by
  induction bs generalizing m a with
  | nil => simp [Memory.writeBytes]
  | cons b bs ih =>
    rw [Memory.writeBytes, ih, Memory.read_write]
    by_cases h1 : k = a
    · subst h1; simp
    · by_cases h2 : a + 1 ≤ k ∧ k - (a + 1) < bs.length
      · have h3 : a ≤ k ∧ k - a < (b :: bs).length := by simp; omega
        rw [dif_pos h2, dif_pos h3]
        have : k - a = (k - (a + 1)) + 1 := by omega
        simp [this]
      · have h3 : ¬ (a ≤ k ∧ k - a < (b :: bs).length) := by simp; omega
        rw [dif_neg h2, dif_neg h3, if_neg h1]

/-! ## The canonical form -/

theorem Memory.wfFrom_cons (lo k : Nat) (c : Byte) (m : Memory) :
    Memory.wfFrom lo ((k, c) :: m) = true ↔
      lo ≤ k ∧ k < 4096 ∧ c ≠ unlisted k ∧ Memory.wfFrom (k + 1) m = true := by
  simp [Memory.wfFrom, and_assoc]

theorem Memory.wfFrom_mono (m : Memory) (lo lo' : Nat) (h : Memory.wfFrom lo m = true) (hl : lo' ≤ lo) :
    Memory.wfFrom lo' m = true := by
  cases m with
  | nil => rfl
  | cons e m =>
    rw [Memory.wfFrom_cons] at h ⊢
    exact ⟨by omega, h.2⟩

theorem Memory.wfFrom_unlist (m : Memory) (lo a : Nat) (h : Memory.wfFrom lo m = true) :
    Memory.wfFrom lo (m.unlist a) = true := by
  induction m generalizing lo with
  | nil => rfl
  | cons e m ih =>
    obtain ⟨k, c⟩ := e
    rw [Memory.wfFrom_cons] at h
    unfold Memory.unlist
    split
    · exact Memory.wfFrom_mono _ (k + 1) lo (ih _ h.2.2.2) (by omega)
    · rw [Memory.wfFrom_cons]
      exact ⟨h.1, h.2.1, h.2.2.1, ih _ h.2.2.2⟩

theorem Memory.wfFrom_list (m : Memory) (lo a : Nat) (b : Byte) (h : Memory.wfFrom lo m = true)
    (hm : ∀ e ∈ m, e.1 ≠ a) (hlo : lo ≤ a) (ha : a < 4096) (hb : b ≠ unlisted a) :
    Memory.wfFrom lo (m.list a b) = true := by
  induction m generalizing lo with
  | nil => simp [Memory.list, hlo, ha, hb, Memory.wfFrom]
  | cons e m ih =>
    obtain ⟨k, c⟩ := e
    have hk : k ≠ a := hm _ List.mem_cons_self
    rw [Memory.wfFrom_cons] at h
    unfold Memory.list
    split
    · rw [Memory.wfFrom_cons, Memory.wfFrom_cons]
      exact ⟨hlo, ha, hb, by omega, h.2⟩
    · rw [Memory.wfFrom_cons]
      exact ⟨h.1, h.2.1, h.2.2.1,
        ih _ h.2.2.2 (fun e he => hm e (List.mem_cons_of_mem _ he)) (by omega)⟩

/-- A write in the store keeps the canonical form. -/
theorem Memory.wf_write (m : Memory) (a : Nat) (b : Byte) (h : m.wf = true) (ha : a < 4096) :
    (m.write a b).wf = true := by
  unfold Memory.write
  have hu := Memory.wfFrom_unlist m 0 a h
  split
  · exact hu
  · next hb => exact Memory.wfFrom_list _ 0 a b hu (Memory.ne_of_mem_unlist m a) (by omega) ha hb

/-- Writing bytes in the store keeps the canonical form. -/
theorem Memory.wf_writeBytes (m : Memory) (a : Nat) (bs : List Byte) (h : m.wf = true)
    (ha : a + bs.length ≤ 4096) : (m.writeBytes a bs).wf = true := by
  induction bs generalizing m a with
  | nil => exact h
  | cons b bs ih =>
    simp only [List.length_cons] at ha
    exact ih _ _ (Memory.wf_write m a b h (by omega)) (by omega)

/-- The memory after reset is in the canonical form. -/
theorem Memory.wf_reset : State.reset.mem.wf = true := rfl

/-- Two memories in the canonical form that read alike at every address are equal. -/
theorem Memory.eq_of_read (m n : Memory) (hm : m.wf = true) (hn : n.wf = true)
    (h : ∀ a, m.read a = n.read a) : m = n := by
  have below : ∀ (m : Memory) (lo a : Nat), Memory.wfFrom lo m = true → a < lo → m.read a = unlisted a := by
    intro m
    induction m with
    | nil => intros; rfl
    | cons e m ih =>
      obtain ⟨k, c⟩ := e
      intro lo a hw ha
      rw [Memory.wfFrom_cons] at hw
      rw [Memory.read, if_neg (by omega)]
      exact ih (k + 1) a hw.2.2.2 (by omega)
  have key : ∀ (m n : Memory) (lo lo' : Nat), Memory.wfFrom lo m = true → Memory.wfFrom lo' n = true →
      (∀ a, m.read a = n.read a) → m = n := by
    intro m
    induction m with
    | nil =>
      intro n lo lo' _ hn h
      cases n with
      | nil => rfl
      | cons e n =>
        obtain ⟨k, c⟩ := e
        rw [Memory.wfFrom_cons] at hn
        exact absurd (by simpa [Memory.read, eq_comm] using h k) hn.2.2.1
    | cons e m ih =>
      obtain ⟨k, c⟩ := e
      intro n lo lo' hm hn h
      rw [Memory.wfFrom_cons] at hm
      cases n with
      | nil =>
        exact absurd (by simpa [Memory.read] using h k) hm.2.2.1
      | cons e' n =>
        obtain ⟨k', c'⟩ := e'
        rw [Memory.wfFrom_cons] at hn
        rcases Nat.lt_trichotomy k k' with hlt | heq | hgt
        · have := h k
          rw [Memory.read, if_pos rfl, Memory.read, if_neg (by omega),
            below n (k' + 1) k hn.2.2.2 (by omega)] at this
          exact absurd this hm.2.2.1
        · subst heq
          have hc := h k
          rw [Memory.read, if_pos rfl, Memory.read, if_pos rfl] at hc
          subst hc
          rw [ih n (k + 1) (k + 1) hm.2.2.2 hn.2.2.2 ?_]
          intro a
          have := h a
          rw [Memory.read, Memory.read] at this
          by_cases ha : k = a
          · subst ha
            rw [below m (k + 1) k hm.2.2.2 (by omega), below n (k + 1) k hn.2.2.2 (by omega)]
          · simpa [ha] using this
        · have := h k'
          rw [Memory.read, if_neg (by omega), Memory.read, if_pos rfl,
            below m (k + 1) k' hm.2.2.2 (by omega)] at this
          exact absurd this.symm hn.2.2.1
  exact key m n 0 0 hm hn h

end Sys2Proof.Machine
end

