-- ==== Sys2Proof/Laws/State.lean ====
section
/-! SUPPORT. One lemma per field per update of State, each true by rfl, so that no proof unfolds a record update; and the reads that an update does not touch. -/

namespace Sys2Proof.Machine

variable (s : State)

/-! ### State.writeMem -/

@[simp] theorem State.writeMem_v (p : Nat) (bs : List Byte) : (s.writeMem p bs).v = s.v := rfl
@[simp] theorem State.writeMem_pc (p : Nat) (bs : List Byte) : (s.writeMem p bs).pc = s.pc := rfl
@[simp] theorem State.writeMem_index (p : Nat) (bs : List Byte) : (s.writeMem p bs).index = s.index := rfl
@[simp] theorem State.writeMem_stack (p : Nat) (bs : List Byte) : (s.writeMem p bs).stack = s.stack := rfl
@[simp] theorem State.writeMem_sp (p : Nat) (bs : List Byte) : (s.writeMem p bs).sp = s.sp := rfl
@[simp] theorem State.writeMem_dt (p : Nat) (bs : List Byte) : (s.writeMem p bs).dt = s.dt := rfl
@[simp] theorem State.writeMem_st (p : Nat) (bs : List Byte) : (s.writeMem p bs).st = s.st := rfl
@[simp] theorem State.writeMem_fb (p : Nat) (bs : List Byte) : (s.writeMem p bs).fb = s.fb := rfl
@[simp] theorem State.writeMem_mem (p : Nat) (bs : List Byte) : (s.writeMem p bs).mem = Memory.writeBytes s.mem p bs := rfl
@[simp] theorem State.writeMem_shouldDraw (p : Nat) (bs : List Byte) : (s.writeMem p bs).shouldDraw = s.shouldDraw := rfl
@[simp] theorem State.writeMem_shouldPlaySound (p : Nat) (bs : List Byte) : (s.writeMem p bs).shouldPlaySound = s.shouldPlaySound := rfl
@[simp] theorem State.writeMem_invalid (p : Nat) (bs : List Byte) : (s.writeMem p bs).invalid = s.invalid := rfl
@[simp] theorem State.writeMem_invalidOpcode (p : Nat) (bs : List Byte) : (s.writeMem p bs).invalidOpcode = s.invalidOpcode := rfl
@[simp] theorem State.writeMem_faulted (p : Nat) (bs : List Byte) : (s.writeMem p bs).faulted = s.faulted := rfl
@[simp] theorem State.writeMem_faultCode (p : Nat) (bs : List Byte) : (s.writeMem p bs).faultCode = s.faultCode := rfl
@[simp] theorem State.writeMem_boot (p : Nat) (bs : List Byte) : (s.writeMem p bs).boot = s.boot := rfl
@[simp] theorem State.writeMem_params (p : Nat) (bs : List Byte) : (s.writeMem p bs).params = s.params := rfl
@[simp] theorem State.writeMem_inputs (p : Nat) (bs : List Byte) : (s.writeMem p bs).inputs = s.inputs := rfl
@[simp] theorem State.writeMem_tickIndex (p : Nat) (bs : List Byte) : (s.writeMem p bs).tickIndex = s.tickIndex := rfl
@[simp] theorem State.writeMem_reg (p : Nat) (bs : List Byte) (x : Nibble) : (s.writeMem p bs).reg x = s.reg x := rfl
@[simp] theorem State.writeMem_effAddr (p : Nat) (bs : List Byte) (k : Nat) : (s.writeMem p bs).effAddr k = s.effAddr k := rfl
@[simp] theorem State.writeMem_pastStore (p : Nat) (bs : List Byte) (k : Nat) : (s.writeMem p bs).pastStore k = s.pastStore k := rfl
@[simp] theorem State.writeMem_keys (p : Nat) (bs : List Byte) : (s.writeMem p bs).keys = s.keys := rfl
@[simp] theorem State.writeMem_rnd (p : Nat) (bs : List Byte) : (s.writeMem p bs).rnd = s.rnd := rfl

/-! ### State.writeReg -/

@[simp] theorem State.writeReg_v (r : Nibble) (b : Byte) : (s.writeReg r b).v = s.v.set r.toNat b r.isLt := rfl
@[simp] theorem State.writeReg_pc (r : Nibble) (b : Byte) : (s.writeReg r b).pc = s.pc := rfl
@[simp] theorem State.writeReg_index (r : Nibble) (b : Byte) : (s.writeReg r b).index = s.index := rfl
@[simp] theorem State.writeReg_stack (r : Nibble) (b : Byte) : (s.writeReg r b).stack = s.stack := rfl
@[simp] theorem State.writeReg_sp (r : Nibble) (b : Byte) : (s.writeReg r b).sp = s.sp := rfl
@[simp] theorem State.writeReg_dt (r : Nibble) (b : Byte) : (s.writeReg r b).dt = s.dt := rfl
@[simp] theorem State.writeReg_st (r : Nibble) (b : Byte) : (s.writeReg r b).st = s.st := rfl
@[simp] theorem State.writeReg_fb (r : Nibble) (b : Byte) : (s.writeReg r b).fb = s.fb := rfl
@[simp] theorem State.writeReg_mem (r : Nibble) (b : Byte) : (s.writeReg r b).mem = s.mem := rfl
@[simp] theorem State.writeReg_shouldDraw (r : Nibble) (b : Byte) : (s.writeReg r b).shouldDraw = s.shouldDraw := rfl
@[simp] theorem State.writeReg_shouldPlaySound (r : Nibble) (b : Byte) : (s.writeReg r b).shouldPlaySound = s.shouldPlaySound := rfl
@[simp] theorem State.writeReg_invalid (r : Nibble) (b : Byte) : (s.writeReg r b).invalid = s.invalid := rfl
@[simp] theorem State.writeReg_invalidOpcode (r : Nibble) (b : Byte) : (s.writeReg r b).invalidOpcode = s.invalidOpcode := rfl
@[simp] theorem State.writeReg_faulted (r : Nibble) (b : Byte) : (s.writeReg r b).faulted = s.faulted := rfl
@[simp] theorem State.writeReg_faultCode (r : Nibble) (b : Byte) : (s.writeReg r b).faultCode = s.faultCode := rfl
@[simp] theorem State.writeReg_boot (r : Nibble) (b : Byte) : (s.writeReg r b).boot = s.boot := rfl
@[simp] theorem State.writeReg_params (r : Nibble) (b : Byte) : (s.writeReg r b).params = s.params := rfl
@[simp] theorem State.writeReg_inputs (r : Nibble) (b : Byte) : (s.writeReg r b).inputs = s.inputs := rfl
@[simp] theorem State.writeReg_tickIndex (r : Nibble) (b : Byte) : (s.writeReg r b).tickIndex = s.tickIndex := rfl
@[simp] theorem State.writeReg_byteAt (r : Nibble) (b : Byte) (a : Nat) : (s.writeReg r b).byteAt a = s.byteAt a := rfl
@[simp] theorem State.writeReg_effAddr (r : Nibble) (b : Byte) (k : Nat) : (s.writeReg r b).effAddr k = s.effAddr k := rfl
@[simp] theorem State.writeReg_pastStore (r : Nibble) (b : Byte) (k : Nat) : (s.writeReg r b).pastStore k = s.pastStore k := rfl
@[simp] theorem State.writeReg_keys (r : Nibble) (b : Byte) : (s.writeReg r b).keys = s.keys := rfl
@[simp] theorem State.writeReg_rnd (r : Nibble) (b : Byte) : (s.writeReg r b).rnd = s.rnd := rfl

/-! ### State.writeFlag -/

@[simp] theorem State.writeFlag_v (c : Bool) : (s.writeFlag c).v = s.v.set 15 (if c then 1 else 0) := rfl
@[simp] theorem State.writeFlag_pc (c : Bool) : (s.writeFlag c).pc = s.pc := rfl
@[simp] theorem State.writeFlag_index (c : Bool) : (s.writeFlag c).index = s.index := rfl
@[simp] theorem State.writeFlag_stack (c : Bool) : (s.writeFlag c).stack = s.stack := rfl
@[simp] theorem State.writeFlag_sp (c : Bool) : (s.writeFlag c).sp = s.sp := rfl
@[simp] theorem State.writeFlag_dt (c : Bool) : (s.writeFlag c).dt = s.dt := rfl
@[simp] theorem State.writeFlag_st (c : Bool) : (s.writeFlag c).st = s.st := rfl
@[simp] theorem State.writeFlag_fb (c : Bool) : (s.writeFlag c).fb = s.fb := rfl
@[simp] theorem State.writeFlag_mem (c : Bool) : (s.writeFlag c).mem = s.mem := rfl
@[simp] theorem State.writeFlag_shouldDraw (c : Bool) : (s.writeFlag c).shouldDraw = s.shouldDraw := rfl
@[simp] theorem State.writeFlag_shouldPlaySound (c : Bool) : (s.writeFlag c).shouldPlaySound = s.shouldPlaySound := rfl
@[simp] theorem State.writeFlag_invalid (c : Bool) : (s.writeFlag c).invalid = s.invalid := rfl
@[simp] theorem State.writeFlag_invalidOpcode (c : Bool) : (s.writeFlag c).invalidOpcode = s.invalidOpcode := rfl
@[simp] theorem State.writeFlag_faulted (c : Bool) : (s.writeFlag c).faulted = s.faulted := rfl
@[simp] theorem State.writeFlag_faultCode (c : Bool) : (s.writeFlag c).faultCode = s.faultCode := rfl
@[simp] theorem State.writeFlag_boot (c : Bool) : (s.writeFlag c).boot = s.boot := rfl
@[simp] theorem State.writeFlag_params (c : Bool) : (s.writeFlag c).params = s.params := rfl
@[simp] theorem State.writeFlag_inputs (c : Bool) : (s.writeFlag c).inputs = s.inputs := rfl
@[simp] theorem State.writeFlag_tickIndex (c : Bool) : (s.writeFlag c).tickIndex = s.tickIndex := rfl
@[simp] theorem State.writeFlag_byteAt (c : Bool) (a : Nat) : (s.writeFlag c).byteAt a = s.byteAt a := rfl
@[simp] theorem State.writeFlag_effAddr (c : Bool) (k : Nat) : (s.writeFlag c).effAddr k = s.effAddr k := rfl
@[simp] theorem State.writeFlag_pastStore (c : Bool) (k : Nat) : (s.writeFlag c).pastStore k = s.pastStore k := rfl
@[simp] theorem State.writeFlag_keys (c : Bool) : (s.writeFlag c).keys = s.keys := rfl
@[simp] theorem State.writeFlag_rnd (c : Bool) : (s.writeFlag c).rnd = s.rnd := rfl

/-! ### State.writeRegs -/

@[simp] theorem State.writeRegs_v (w : Vector Byte 16) : (s.writeRegs w).v = w := rfl
@[simp] theorem State.writeRegs_pc (w : Vector Byte 16) : (s.writeRegs w).pc = s.pc := rfl
@[simp] theorem State.writeRegs_index (w : Vector Byte 16) : (s.writeRegs w).index = s.index := rfl
@[simp] theorem State.writeRegs_stack (w : Vector Byte 16) : (s.writeRegs w).stack = s.stack := rfl
@[simp] theorem State.writeRegs_sp (w : Vector Byte 16) : (s.writeRegs w).sp = s.sp := rfl
@[simp] theorem State.writeRegs_dt (w : Vector Byte 16) : (s.writeRegs w).dt = s.dt := rfl
@[simp] theorem State.writeRegs_st (w : Vector Byte 16) : (s.writeRegs w).st = s.st := rfl
@[simp] theorem State.writeRegs_fb (w : Vector Byte 16) : (s.writeRegs w).fb = s.fb := rfl
@[simp] theorem State.writeRegs_mem (w : Vector Byte 16) : (s.writeRegs w).mem = s.mem := rfl
@[simp] theorem State.writeRegs_shouldDraw (w : Vector Byte 16) : (s.writeRegs w).shouldDraw = s.shouldDraw := rfl
@[simp] theorem State.writeRegs_shouldPlaySound (w : Vector Byte 16) : (s.writeRegs w).shouldPlaySound = s.shouldPlaySound := rfl
@[simp] theorem State.writeRegs_invalid (w : Vector Byte 16) : (s.writeRegs w).invalid = s.invalid := rfl
@[simp] theorem State.writeRegs_invalidOpcode (w : Vector Byte 16) : (s.writeRegs w).invalidOpcode = s.invalidOpcode := rfl
@[simp] theorem State.writeRegs_faulted (w : Vector Byte 16) : (s.writeRegs w).faulted = s.faulted := rfl
@[simp] theorem State.writeRegs_faultCode (w : Vector Byte 16) : (s.writeRegs w).faultCode = s.faultCode := rfl
@[simp] theorem State.writeRegs_boot (w : Vector Byte 16) : (s.writeRegs w).boot = s.boot := rfl
@[simp] theorem State.writeRegs_params (w : Vector Byte 16) : (s.writeRegs w).params = s.params := rfl
@[simp] theorem State.writeRegs_inputs (w : Vector Byte 16) : (s.writeRegs w).inputs = s.inputs := rfl
@[simp] theorem State.writeRegs_tickIndex (w : Vector Byte 16) : (s.writeRegs w).tickIndex = s.tickIndex := rfl
@[simp] theorem State.writeRegs_byteAt (w : Vector Byte 16) (a : Nat) : (s.writeRegs w).byteAt a = s.byteAt a := rfl
@[simp] theorem State.writeRegs_effAddr (w : Vector Byte 16) (k : Nat) : (s.writeRegs w).effAddr k = s.effAddr k := rfl
@[simp] theorem State.writeRegs_pastStore (w : Vector Byte 16) (k : Nat) : (s.writeRegs w).pastStore k = s.pastStore k := rfl
@[simp] theorem State.writeRegs_keys (w : Vector Byte 16) : (s.writeRegs w).keys = s.keys := rfl
@[simp] theorem State.writeRegs_rnd (w : Vector Byte 16) : (s.writeRegs w).rnd = s.rnd := rfl

/-! ### State.writeIndex -/

@[simp] theorem State.writeIndex_v (w : Word) : (s.writeIndex w).v = s.v := rfl
@[simp] theorem State.writeIndex_pc (w : Word) : (s.writeIndex w).pc = s.pc := rfl
@[simp] theorem State.writeIndex_index (w : Word) : (s.writeIndex w).index = w := rfl
@[simp] theorem State.writeIndex_stack (w : Word) : (s.writeIndex w).stack = s.stack := rfl
@[simp] theorem State.writeIndex_sp (w : Word) : (s.writeIndex w).sp = s.sp := rfl
@[simp] theorem State.writeIndex_dt (w : Word) : (s.writeIndex w).dt = s.dt := rfl
@[simp] theorem State.writeIndex_st (w : Word) : (s.writeIndex w).st = s.st := rfl
@[simp] theorem State.writeIndex_fb (w : Word) : (s.writeIndex w).fb = s.fb := rfl
@[simp] theorem State.writeIndex_mem (w : Word) : (s.writeIndex w).mem = s.mem := rfl
@[simp] theorem State.writeIndex_shouldDraw (w : Word) : (s.writeIndex w).shouldDraw = s.shouldDraw := rfl
@[simp] theorem State.writeIndex_shouldPlaySound (w : Word) : (s.writeIndex w).shouldPlaySound = s.shouldPlaySound := rfl
@[simp] theorem State.writeIndex_invalid (w : Word) : (s.writeIndex w).invalid = s.invalid := rfl
@[simp] theorem State.writeIndex_invalidOpcode (w : Word) : (s.writeIndex w).invalidOpcode = s.invalidOpcode := rfl
@[simp] theorem State.writeIndex_faulted (w : Word) : (s.writeIndex w).faulted = s.faulted := rfl
@[simp] theorem State.writeIndex_faultCode (w : Word) : (s.writeIndex w).faultCode = s.faultCode := rfl
@[simp] theorem State.writeIndex_boot (w : Word) : (s.writeIndex w).boot = s.boot := rfl
@[simp] theorem State.writeIndex_params (w : Word) : (s.writeIndex w).params = s.params := rfl
@[simp] theorem State.writeIndex_inputs (w : Word) : (s.writeIndex w).inputs = s.inputs := rfl
@[simp] theorem State.writeIndex_tickIndex (w : Word) : (s.writeIndex w).tickIndex = s.tickIndex := rfl
@[simp] theorem State.writeIndex_reg (w : Word) (x : Nibble) : (s.writeIndex w).reg x = s.reg x := rfl
@[simp] theorem State.writeIndex_byteAt (w : Word) (a : Nat) : (s.writeIndex w).byteAt a = s.byteAt a := rfl
@[simp] theorem State.writeIndex_keys (w : Word) : (s.writeIndex w).keys = s.keys := rfl
@[simp] theorem State.writeIndex_rnd (w : Word) : (s.writeIndex w).rnd = s.rnd := rfl

/-! ### State.writeDT -/

@[simp] theorem State.writeDT_v (b : Byte) : (s.writeDT b).v = s.v := rfl
@[simp] theorem State.writeDT_pc (b : Byte) : (s.writeDT b).pc = s.pc := rfl
@[simp] theorem State.writeDT_index (b : Byte) : (s.writeDT b).index = s.index := rfl
@[simp] theorem State.writeDT_stack (b : Byte) : (s.writeDT b).stack = s.stack := rfl
@[simp] theorem State.writeDT_sp (b : Byte) : (s.writeDT b).sp = s.sp := rfl
@[simp] theorem State.writeDT_dt (b : Byte) : (s.writeDT b).dt = b := rfl
@[simp] theorem State.writeDT_st (b : Byte) : (s.writeDT b).st = s.st := rfl
@[simp] theorem State.writeDT_fb (b : Byte) : (s.writeDT b).fb = s.fb := rfl
@[simp] theorem State.writeDT_mem (b : Byte) : (s.writeDT b).mem = s.mem := rfl
@[simp] theorem State.writeDT_shouldDraw (b : Byte) : (s.writeDT b).shouldDraw = s.shouldDraw := rfl
@[simp] theorem State.writeDT_shouldPlaySound (b : Byte) : (s.writeDT b).shouldPlaySound = s.shouldPlaySound := rfl
@[simp] theorem State.writeDT_invalid (b : Byte) : (s.writeDT b).invalid = s.invalid := rfl
@[simp] theorem State.writeDT_invalidOpcode (b : Byte) : (s.writeDT b).invalidOpcode = s.invalidOpcode := rfl
@[simp] theorem State.writeDT_faulted (b : Byte) : (s.writeDT b).faulted = s.faulted := rfl
@[simp] theorem State.writeDT_faultCode (b : Byte) : (s.writeDT b).faultCode = s.faultCode := rfl
@[simp] theorem State.writeDT_boot (b : Byte) : (s.writeDT b).boot = s.boot := rfl
@[simp] theorem State.writeDT_params (b : Byte) : (s.writeDT b).params = s.params := rfl
@[simp] theorem State.writeDT_inputs (b : Byte) : (s.writeDT b).inputs = s.inputs := rfl
@[simp] theorem State.writeDT_tickIndex (b : Byte) : (s.writeDT b).tickIndex = s.tickIndex := rfl
@[simp] theorem State.writeDT_reg (b : Byte) (x : Nibble) : (s.writeDT b).reg x = s.reg x := rfl
@[simp] theorem State.writeDT_byteAt (b : Byte) (a : Nat) : (s.writeDT b).byteAt a = s.byteAt a := rfl
@[simp] theorem State.writeDT_effAddr (b : Byte) (k : Nat) : (s.writeDT b).effAddr k = s.effAddr k := rfl
@[simp] theorem State.writeDT_pastStore (b : Byte) (k : Nat) : (s.writeDT b).pastStore k = s.pastStore k := rfl
@[simp] theorem State.writeDT_keys (b : Byte) : (s.writeDT b).keys = s.keys := rfl
@[simp] theorem State.writeDT_rnd (b : Byte) : (s.writeDT b).rnd = s.rnd := rfl

/-! ### State.writeST -/

@[simp] theorem State.writeST_v (b : Byte) : (s.writeST b).v = s.v := rfl
@[simp] theorem State.writeST_pc (b : Byte) : (s.writeST b).pc = s.pc := rfl
@[simp] theorem State.writeST_index (b : Byte) : (s.writeST b).index = s.index := rfl
@[simp] theorem State.writeST_stack (b : Byte) : (s.writeST b).stack = s.stack := rfl
@[simp] theorem State.writeST_sp (b : Byte) : (s.writeST b).sp = s.sp := rfl
@[simp] theorem State.writeST_dt (b : Byte) : (s.writeST b).dt = s.dt := rfl
@[simp] theorem State.writeST_st (b : Byte) : (s.writeST b).st = b := rfl
@[simp] theorem State.writeST_fb (b : Byte) : (s.writeST b).fb = s.fb := rfl
@[simp] theorem State.writeST_mem (b : Byte) : (s.writeST b).mem = s.mem := rfl
@[simp] theorem State.writeST_shouldDraw (b : Byte) : (s.writeST b).shouldDraw = s.shouldDraw := rfl
@[simp] theorem State.writeST_shouldPlaySound (b : Byte) : (s.writeST b).shouldPlaySound = s.shouldPlaySound := rfl
@[simp] theorem State.writeST_invalid (b : Byte) : (s.writeST b).invalid = s.invalid := rfl
@[simp] theorem State.writeST_invalidOpcode (b : Byte) : (s.writeST b).invalidOpcode = s.invalidOpcode := rfl
@[simp] theorem State.writeST_faulted (b : Byte) : (s.writeST b).faulted = s.faulted := rfl
@[simp] theorem State.writeST_faultCode (b : Byte) : (s.writeST b).faultCode = s.faultCode := rfl
@[simp] theorem State.writeST_boot (b : Byte) : (s.writeST b).boot = s.boot := rfl
@[simp] theorem State.writeST_params (b : Byte) : (s.writeST b).params = s.params := rfl
@[simp] theorem State.writeST_inputs (b : Byte) : (s.writeST b).inputs = s.inputs := rfl
@[simp] theorem State.writeST_tickIndex (b : Byte) : (s.writeST b).tickIndex = s.tickIndex := rfl
@[simp] theorem State.writeST_reg (b : Byte) (x : Nibble) : (s.writeST b).reg x = s.reg x := rfl
@[simp] theorem State.writeST_byteAt (b : Byte) (a : Nat) : (s.writeST b).byteAt a = s.byteAt a := rfl
@[simp] theorem State.writeST_effAddr (b : Byte) (k : Nat) : (s.writeST b).effAddr k = s.effAddr k := rfl
@[simp] theorem State.writeST_pastStore (b : Byte) (k : Nat) : (s.writeST b).pastStore k = s.pastStore k := rfl
@[simp] theorem State.writeST_keys (b : Byte) : (s.writeST b).keys = s.keys := rfl
@[simp] theorem State.writeST_rnd (b : Byte) : (s.writeST b).rnd = s.rnd := rfl

/-! ### State.writeFB -/

@[simp] theorem State.writeFB_v (g : FrameBuffer) : (s.writeFB g).v = s.v := rfl
@[simp] theorem State.writeFB_pc (g : FrameBuffer) : (s.writeFB g).pc = s.pc := rfl
@[simp] theorem State.writeFB_index (g : FrameBuffer) : (s.writeFB g).index = s.index := rfl
@[simp] theorem State.writeFB_stack (g : FrameBuffer) : (s.writeFB g).stack = s.stack := rfl
@[simp] theorem State.writeFB_sp (g : FrameBuffer) : (s.writeFB g).sp = s.sp := rfl
@[simp] theorem State.writeFB_dt (g : FrameBuffer) : (s.writeFB g).dt = s.dt := rfl
@[simp] theorem State.writeFB_st (g : FrameBuffer) : (s.writeFB g).st = s.st := rfl
@[simp] theorem State.writeFB_fb (g : FrameBuffer) : (s.writeFB g).fb = g := rfl
@[simp] theorem State.writeFB_mem (g : FrameBuffer) : (s.writeFB g).mem = s.mem := rfl
@[simp] theorem State.writeFB_shouldDraw (g : FrameBuffer) : (s.writeFB g).shouldDraw = s.shouldDraw := rfl
@[simp] theorem State.writeFB_shouldPlaySound (g : FrameBuffer) : (s.writeFB g).shouldPlaySound = s.shouldPlaySound := rfl
@[simp] theorem State.writeFB_invalid (g : FrameBuffer) : (s.writeFB g).invalid = s.invalid := rfl
@[simp] theorem State.writeFB_invalidOpcode (g : FrameBuffer) : (s.writeFB g).invalidOpcode = s.invalidOpcode := rfl
@[simp] theorem State.writeFB_faulted (g : FrameBuffer) : (s.writeFB g).faulted = s.faulted := rfl
@[simp] theorem State.writeFB_faultCode (g : FrameBuffer) : (s.writeFB g).faultCode = s.faultCode := rfl
@[simp] theorem State.writeFB_boot (g : FrameBuffer) : (s.writeFB g).boot = s.boot := rfl
@[simp] theorem State.writeFB_params (g : FrameBuffer) : (s.writeFB g).params = s.params := rfl
@[simp] theorem State.writeFB_inputs (g : FrameBuffer) : (s.writeFB g).inputs = s.inputs := rfl
@[simp] theorem State.writeFB_tickIndex (g : FrameBuffer) : (s.writeFB g).tickIndex = s.tickIndex := rfl
@[simp] theorem State.writeFB_reg (g : FrameBuffer) (x : Nibble) : (s.writeFB g).reg x = s.reg x := rfl
@[simp] theorem State.writeFB_byteAt (g : FrameBuffer) (a : Nat) : (s.writeFB g).byteAt a = s.byteAt a := rfl
@[simp] theorem State.writeFB_effAddr (g : FrameBuffer) (k : Nat) : (s.writeFB g).effAddr k = s.effAddr k := rfl
@[simp] theorem State.writeFB_pastStore (g : FrameBuffer) (k : Nat) : (s.writeFB g).pastStore k = s.pastStore k := rfl
@[simp] theorem State.writeFB_keys (g : FrameBuffer) : (s.writeFB g).keys = s.keys := rfl
@[simp] theorem State.writeFB_rnd (g : FrameBuffer) : (s.writeFB g).rnd = s.rnd := rfl

/-! ### State.goto -/

@[simp] theorem State.goto_v (t : Word) : (s.goto t).v = s.v := rfl
@[simp] theorem State.goto_pc (t : Word) : (s.goto t).pc = t := rfl
@[simp] theorem State.goto_index (t : Word) : (s.goto t).index = s.index := rfl
@[simp] theorem State.goto_stack (t : Word) : (s.goto t).stack = s.stack := rfl
@[simp] theorem State.goto_sp (t : Word) : (s.goto t).sp = s.sp := rfl
@[simp] theorem State.goto_dt (t : Word) : (s.goto t).dt = s.dt := rfl
@[simp] theorem State.goto_st (t : Word) : (s.goto t).st = s.st := rfl
@[simp] theorem State.goto_fb (t : Word) : (s.goto t).fb = s.fb := rfl
@[simp] theorem State.goto_mem (t : Word) : (s.goto t).mem = s.mem := rfl
@[simp] theorem State.goto_shouldDraw (t : Word) : (s.goto t).shouldDraw = s.shouldDraw := rfl
@[simp] theorem State.goto_shouldPlaySound (t : Word) : (s.goto t).shouldPlaySound = s.shouldPlaySound := rfl
@[simp] theorem State.goto_invalid (t : Word) : (s.goto t).invalid = s.invalid := rfl
@[simp] theorem State.goto_invalidOpcode (t : Word) : (s.goto t).invalidOpcode = s.invalidOpcode := rfl
@[simp] theorem State.goto_faulted (t : Word) : (s.goto t).faulted = s.faulted := rfl
@[simp] theorem State.goto_faultCode (t : Word) : (s.goto t).faultCode = s.faultCode := rfl
@[simp] theorem State.goto_boot (t : Word) : (s.goto t).boot = s.boot := rfl
@[simp] theorem State.goto_params (t : Word) : (s.goto t).params = s.params := rfl
@[simp] theorem State.goto_inputs (t : Word) : (s.goto t).inputs = s.inputs := rfl
@[simp] theorem State.goto_tickIndex (t : Word) : (s.goto t).tickIndex = s.tickIndex := rfl
@[simp] theorem State.goto_reg (t : Word) (x : Nibble) : (s.goto t).reg x = s.reg x := rfl
@[simp] theorem State.goto_byteAt (t : Word) (a : Nat) : (s.goto t).byteAt a = s.byteAt a := rfl
@[simp] theorem State.goto_effAddr (t : Word) (k : Nat) : (s.goto t).effAddr k = s.effAddr k := rfl
@[simp] theorem State.goto_pastStore (t : Word) (k : Nat) : (s.goto t).pastStore k = s.pastStore k := rfl
@[simp] theorem State.goto_keys (t : Word) : (s.goto t).keys = s.keys := rfl
@[simp] theorem State.goto_rnd (t : Word) : (s.goto t).rnd = s.rnd := rfl

/-! ### State.advance -/

@[simp] theorem State.advance_v : (s.advance).v = s.v := rfl
@[simp] theorem State.advance_pc : (s.advance).pc = s.pc + 2 := rfl
@[simp] theorem State.advance_index : (s.advance).index = s.index := rfl
@[simp] theorem State.advance_stack : (s.advance).stack = s.stack := rfl
@[simp] theorem State.advance_sp : (s.advance).sp = s.sp := rfl
@[simp] theorem State.advance_dt : (s.advance).dt = s.dt := rfl
@[simp] theorem State.advance_st : (s.advance).st = s.st := rfl
@[simp] theorem State.advance_fb : (s.advance).fb = s.fb := rfl
@[simp] theorem State.advance_mem : (s.advance).mem = s.mem := rfl
@[simp] theorem State.advance_shouldDraw : (s.advance).shouldDraw = s.shouldDraw := rfl
@[simp] theorem State.advance_shouldPlaySound : (s.advance).shouldPlaySound = s.shouldPlaySound := rfl
@[simp] theorem State.advance_invalid : (s.advance).invalid = s.invalid := rfl
@[simp] theorem State.advance_invalidOpcode : (s.advance).invalidOpcode = s.invalidOpcode := rfl
@[simp] theorem State.advance_faulted : (s.advance).faulted = s.faulted := rfl
@[simp] theorem State.advance_faultCode : (s.advance).faultCode = s.faultCode := rfl
@[simp] theorem State.advance_boot : (s.advance).boot = s.boot := rfl
@[simp] theorem State.advance_params : (s.advance).params = s.params := rfl
@[simp] theorem State.advance_inputs : (s.advance).inputs = s.inputs := rfl
@[simp] theorem State.advance_tickIndex : (s.advance).tickIndex = s.tickIndex := rfl
@[simp] theorem State.advance_reg (x : Nibble) : (s.advance).reg x = s.reg x := rfl
@[simp] theorem State.advance_byteAt (a : Nat) : (s.advance).byteAt a = s.byteAt a := rfl
@[simp] theorem State.advance_effAddr (k : Nat) : (s.advance).effAddr k = s.effAddr k := rfl
@[simp] theorem State.advance_pastStore (k : Nat) : (s.advance).pastStore k = s.pastStore k := rfl
@[simp] theorem State.advance_keys : (s.advance).keys = s.keys := rfl
@[simp] theorem State.advance_rnd : (s.advance).rnd = s.rnd := rfl

/-! ### State.skipIf -/

@[simp] theorem State.skipIf_v (c : Bool) : (s.skipIf c).v = s.v := rfl
@[simp] theorem State.skipIf_pc (c : Bool) : (s.skipIf c).pc = s.pc + if c then 4 else 2 := rfl
@[simp] theorem State.skipIf_index (c : Bool) : (s.skipIf c).index = s.index := rfl
@[simp] theorem State.skipIf_stack (c : Bool) : (s.skipIf c).stack = s.stack := rfl
@[simp] theorem State.skipIf_sp (c : Bool) : (s.skipIf c).sp = s.sp := rfl
@[simp] theorem State.skipIf_dt (c : Bool) : (s.skipIf c).dt = s.dt := rfl
@[simp] theorem State.skipIf_st (c : Bool) : (s.skipIf c).st = s.st := rfl
@[simp] theorem State.skipIf_fb (c : Bool) : (s.skipIf c).fb = s.fb := rfl
@[simp] theorem State.skipIf_mem (c : Bool) : (s.skipIf c).mem = s.mem := rfl
@[simp] theorem State.skipIf_shouldDraw (c : Bool) : (s.skipIf c).shouldDraw = s.shouldDraw := rfl
@[simp] theorem State.skipIf_shouldPlaySound (c : Bool) : (s.skipIf c).shouldPlaySound = s.shouldPlaySound := rfl
@[simp] theorem State.skipIf_invalid (c : Bool) : (s.skipIf c).invalid = s.invalid := rfl
@[simp] theorem State.skipIf_invalidOpcode (c : Bool) : (s.skipIf c).invalidOpcode = s.invalidOpcode := rfl
@[simp] theorem State.skipIf_faulted (c : Bool) : (s.skipIf c).faulted = s.faulted := rfl
@[simp] theorem State.skipIf_faultCode (c : Bool) : (s.skipIf c).faultCode = s.faultCode := rfl
@[simp] theorem State.skipIf_boot (c : Bool) : (s.skipIf c).boot = s.boot := rfl
@[simp] theorem State.skipIf_params (c : Bool) : (s.skipIf c).params = s.params := rfl
@[simp] theorem State.skipIf_inputs (c : Bool) : (s.skipIf c).inputs = s.inputs := rfl
@[simp] theorem State.skipIf_tickIndex (c : Bool) : (s.skipIf c).tickIndex = s.tickIndex := rfl
@[simp] theorem State.skipIf_reg (c : Bool) (x : Nibble) : (s.skipIf c).reg x = s.reg x := rfl
@[simp] theorem State.skipIf_byteAt (c : Bool) (a : Nat) : (s.skipIf c).byteAt a = s.byteAt a := rfl
@[simp] theorem State.skipIf_effAddr (c : Bool) (k : Nat) : (s.skipIf c).effAddr k = s.effAddr k := rfl
@[simp] theorem State.skipIf_pastStore (c : Bool) (k : Nat) : (s.skipIf c).pastStore k = s.pastStore k := rfl
@[simp] theorem State.skipIf_keys (c : Bool) : (s.skipIf c).keys = s.keys := rfl
@[simp] theorem State.skipIf_rnd (c : Bool) : (s.skipIf c).rnd = s.rnd := rfl

/-! ### State.pop -/

@[simp] theorem State.pop_v : (s.pop).v = s.v := rfl
@[simp] theorem State.pop_pc : (s.pop).pc = s.pc := rfl
@[simp] theorem State.pop_index : (s.pop).index = s.index := rfl
@[simp] theorem State.pop_stack : (s.pop).stack = s.stack := rfl
@[simp] theorem State.pop_sp : (s.pop).sp = ⟨s.sp.val - 1, by omega⟩ := rfl
@[simp] theorem State.pop_dt : (s.pop).dt = s.dt := rfl
@[simp] theorem State.pop_st : (s.pop).st = s.st := rfl
@[simp] theorem State.pop_fb : (s.pop).fb = s.fb := rfl
@[simp] theorem State.pop_mem : (s.pop).mem = s.mem := rfl
@[simp] theorem State.pop_shouldDraw : (s.pop).shouldDraw = s.shouldDraw := rfl
@[simp] theorem State.pop_shouldPlaySound : (s.pop).shouldPlaySound = s.shouldPlaySound := rfl
@[simp] theorem State.pop_invalid : (s.pop).invalid = s.invalid := rfl
@[simp] theorem State.pop_invalidOpcode : (s.pop).invalidOpcode = s.invalidOpcode := rfl
@[simp] theorem State.pop_faulted : (s.pop).faulted = s.faulted := rfl
@[simp] theorem State.pop_faultCode : (s.pop).faultCode = s.faultCode := rfl
@[simp] theorem State.pop_boot : (s.pop).boot = s.boot := rfl
@[simp] theorem State.pop_params : (s.pop).params = s.params := rfl
@[simp] theorem State.pop_inputs : (s.pop).inputs = s.inputs := rfl
@[simp] theorem State.pop_tickIndex : (s.pop).tickIndex = s.tickIndex := rfl
@[simp] theorem State.pop_reg (x : Nibble) : (s.pop).reg x = s.reg x := rfl
@[simp] theorem State.pop_byteAt (a : Nat) : (s.pop).byteAt a = s.byteAt a := rfl
@[simp] theorem State.pop_effAddr (k : Nat) : (s.pop).effAddr k = s.effAddr k := rfl
@[simp] theorem State.pop_pastStore (k : Nat) : (s.pop).pastStore k = s.pastStore k := rfl
@[simp] theorem State.pop_keys : (s.pop).keys = s.keys := rfl
@[simp] theorem State.pop_rnd : (s.pop).rnd = s.rnd := rfl

/-! ### State.push -/

@[simp] theorem State.push_v (w : Word) (h : s.sp.val < 64) : (s.push w h).v = s.v := rfl
@[simp] theorem State.push_pc (w : Word) (h : s.sp.val < 64) : (s.push w h).pc = s.pc := rfl
@[simp] theorem State.push_index (w : Word) (h : s.sp.val < 64) : (s.push w h).index = s.index := rfl
@[simp] theorem State.push_stack (w : Word) (h : s.sp.val < 64) : (s.push w h).stack = s.stack.set s.sp.val w h := rfl
@[simp] theorem State.push_sp (w : Word) (h : s.sp.val < 64) : (s.push w h).sp = ⟨s.sp.val + 1, by omega⟩ := rfl
@[simp] theorem State.push_dt (w : Word) (h : s.sp.val < 64) : (s.push w h).dt = s.dt := rfl
@[simp] theorem State.push_st (w : Word) (h : s.sp.val < 64) : (s.push w h).st = s.st := rfl
@[simp] theorem State.push_fb (w : Word) (h : s.sp.val < 64) : (s.push w h).fb = s.fb := rfl
@[simp] theorem State.push_mem (w : Word) (h : s.sp.val < 64) : (s.push w h).mem = s.mem := rfl
@[simp] theorem State.push_shouldDraw (w : Word) (h : s.sp.val < 64) : (s.push w h).shouldDraw = s.shouldDraw := rfl
@[simp] theorem State.push_shouldPlaySound (w : Word) (h : s.sp.val < 64) : (s.push w h).shouldPlaySound = s.shouldPlaySound := rfl
@[simp] theorem State.push_invalid (w : Word) (h : s.sp.val < 64) : (s.push w h).invalid = s.invalid := rfl
@[simp] theorem State.push_invalidOpcode (w : Word) (h : s.sp.val < 64) : (s.push w h).invalidOpcode = s.invalidOpcode := rfl
@[simp] theorem State.push_faulted (w : Word) (h : s.sp.val < 64) : (s.push w h).faulted = s.faulted := rfl
@[simp] theorem State.push_faultCode (w : Word) (h : s.sp.val < 64) : (s.push w h).faultCode = s.faultCode := rfl
@[simp] theorem State.push_boot (w : Word) (h : s.sp.val < 64) : (s.push w h).boot = s.boot := rfl
@[simp] theorem State.push_params (w : Word) (h : s.sp.val < 64) : (s.push w h).params = s.params := rfl
@[simp] theorem State.push_inputs (w : Word) (h : s.sp.val < 64) : (s.push w h).inputs = s.inputs := rfl
@[simp] theorem State.push_tickIndex (w : Word) (h : s.sp.val < 64) : (s.push w h).tickIndex = s.tickIndex := rfl
@[simp] theorem State.push_reg (w : Word) (h : s.sp.val < 64) (x : Nibble) : (s.push w h).reg x = s.reg x := rfl
@[simp] theorem State.push_byteAt (w : Word) (h : s.sp.val < 64) (a : Nat) : (s.push w h).byteAt a = s.byteAt a := rfl
@[simp] theorem State.push_effAddr (w : Word) (h : s.sp.val < 64) (k : Nat) : (s.push w h).effAddr k = s.effAddr k := rfl
@[simp] theorem State.push_pastStore (w : Word) (h : s.sp.val < 64) (k : Nat) : (s.push w h).pastStore k = s.pastStore k := rfl
@[simp] theorem State.push_keys (w : Word) (h : s.sp.val < 64) : (s.push w h).keys = s.keys := rfl
@[simp] theorem State.push_rnd (w : Word) (h : s.sp.val < 64) : (s.push w h).rnd = s.rnd := rfl

/-! ### State.clearOutputs -/

@[simp] theorem State.clearOutputs_v : (s.clearOutputs).v = s.v := rfl
@[simp] theorem State.clearOutputs_pc : (s.clearOutputs).pc = s.pc := rfl
@[simp] theorem State.clearOutputs_index : (s.clearOutputs).index = s.index := rfl
@[simp] theorem State.clearOutputs_stack : (s.clearOutputs).stack = s.stack := rfl
@[simp] theorem State.clearOutputs_sp : (s.clearOutputs).sp = s.sp := rfl
@[simp] theorem State.clearOutputs_dt : (s.clearOutputs).dt = s.dt := rfl
@[simp] theorem State.clearOutputs_st : (s.clearOutputs).st = s.st := rfl
@[simp] theorem State.clearOutputs_fb : (s.clearOutputs).fb = s.fb := rfl
@[simp] theorem State.clearOutputs_mem : (s.clearOutputs).mem = s.mem := rfl
@[simp] theorem State.clearOutputs_shouldDraw : (s.clearOutputs).shouldDraw = false := rfl
@[simp] theorem State.clearOutputs_shouldPlaySound : (s.clearOutputs).shouldPlaySound = false := rfl
@[simp] theorem State.clearOutputs_invalid : (s.clearOutputs).invalid = false := rfl
@[simp] theorem State.clearOutputs_invalidOpcode : (s.clearOutputs).invalidOpcode = 0 := rfl
@[simp] theorem State.clearOutputs_faulted : (s.clearOutputs).faulted = s.faulted := rfl
@[simp] theorem State.clearOutputs_faultCode : (s.clearOutputs).faultCode = s.faultCode := rfl
@[simp] theorem State.clearOutputs_boot : (s.clearOutputs).boot = s.boot := rfl
@[simp] theorem State.clearOutputs_params : (s.clearOutputs).params = s.params := rfl
@[simp] theorem State.clearOutputs_inputs : (s.clearOutputs).inputs = s.inputs := rfl
@[simp] theorem State.clearOutputs_tickIndex : (s.clearOutputs).tickIndex = s.tickIndex := rfl
@[simp] theorem State.clearOutputs_reg (x : Nibble) : (s.clearOutputs).reg x = s.reg x := rfl
@[simp] theorem State.clearOutputs_byteAt (a : Nat) : (s.clearOutputs).byteAt a = s.byteAt a := rfl
@[simp] theorem State.clearOutputs_effAddr (k : Nat) : (s.clearOutputs).effAddr k = s.effAddr k := rfl
@[simp] theorem State.clearOutputs_pastStore (k : Nat) : (s.clearOutputs).pastStore k = s.pastStore k := rfl
@[simp] theorem State.clearOutputs_keys : (s.clearOutputs).keys = s.keys := rfl
@[simp] theorem State.clearOutputs_rnd : (s.clearOutputs).rnd = s.rnd := rfl

/-! ### State.raiseFault -/

@[simp] theorem State.raiseFault_v (k : FaultKind) : (s.raiseFault k).v = s.v := rfl
@[simp] theorem State.raiseFault_pc (k : FaultKind) : (s.raiseFault k).pc = s.pc := rfl
@[simp] theorem State.raiseFault_index (k : FaultKind) : (s.raiseFault k).index = s.index := rfl
@[simp] theorem State.raiseFault_stack (k : FaultKind) : (s.raiseFault k).stack = s.stack := rfl
@[simp] theorem State.raiseFault_sp (k : FaultKind) : (s.raiseFault k).sp = s.sp := rfl
@[simp] theorem State.raiseFault_dt (k : FaultKind) : (s.raiseFault k).dt = s.dt := rfl
@[simp] theorem State.raiseFault_st (k : FaultKind) : (s.raiseFault k).st = s.st := rfl
@[simp] theorem State.raiseFault_fb (k : FaultKind) : (s.raiseFault k).fb = s.fb := rfl
@[simp] theorem State.raiseFault_mem (k : FaultKind) : (s.raiseFault k).mem = s.mem := rfl
@[simp] theorem State.raiseFault_shouldDraw (k : FaultKind) : (s.raiseFault k).shouldDraw = false := rfl
@[simp] theorem State.raiseFault_shouldPlaySound (k : FaultKind) : (s.raiseFault k).shouldPlaySound = false := rfl
@[simp] theorem State.raiseFault_invalid (k : FaultKind) : (s.raiseFault k).invalid = false := rfl
@[simp] theorem State.raiseFault_invalidOpcode (k : FaultKind) : (s.raiseFault k).invalidOpcode = 0 := rfl
@[simp] theorem State.raiseFault_faulted (k : FaultKind) : (s.raiseFault k).faulted = true := rfl
@[simp] theorem State.raiseFault_faultCode (k : FaultKind) : (s.raiseFault k).faultCode = k.code := rfl
@[simp] theorem State.raiseFault_boot (k : FaultKind) : (s.raiseFault k).boot = s.boot := rfl
@[simp] theorem State.raiseFault_params (k : FaultKind) : (s.raiseFault k).params = s.params := rfl
@[simp] theorem State.raiseFault_inputs (k : FaultKind) : (s.raiseFault k).inputs = s.inputs := rfl
@[simp] theorem State.raiseFault_tickIndex (k : FaultKind) : (s.raiseFault k).tickIndex = s.tickIndex := rfl
@[simp] theorem State.raiseFault_reg (k : FaultKind) (x : Nibble) : (s.raiseFault k).reg x = s.reg x := rfl
@[simp] theorem State.raiseFault_byteAt (k : FaultKind) (a : Nat) : (s.raiseFault k).byteAt a = s.byteAt a := rfl
@[simp] theorem State.raiseFault_effAddr (f : FaultKind) (k : Nat) : (s.raiseFault f).effAddr k = s.effAddr k := rfl
@[simp] theorem State.raiseFault_pastStore (f : FaultKind) (k : Nat) : (s.raiseFault f).pastStore k = s.pastStore k := rfl
@[simp] theorem State.raiseFault_keys (k : FaultKind) : (s.raiseFault k).keys = s.keys := rfl
@[simp] theorem State.raiseFault_rnd (k : FaultKind) : (s.raiseFault k).rnd = s.rnd := rfl

/-! ### State.sampleSound -/

@[simp] theorem State.sampleSound_v : (s.sampleSound).v = s.v := rfl
@[simp] theorem State.sampleSound_pc : (s.sampleSound).pc = s.pc := rfl
@[simp] theorem State.sampleSound_index : (s.sampleSound).index = s.index := rfl
@[simp] theorem State.sampleSound_stack : (s.sampleSound).stack = s.stack := rfl
@[simp] theorem State.sampleSound_sp : (s.sampleSound).sp = s.sp := rfl
@[simp] theorem State.sampleSound_dt : (s.sampleSound).dt = s.dt := rfl
@[simp] theorem State.sampleSound_st : (s.sampleSound).st = s.st := rfl
@[simp] theorem State.sampleSound_fb : (s.sampleSound).fb = s.fb := rfl
@[simp] theorem State.sampleSound_mem : (s.sampleSound).mem = s.mem := rfl
@[simp] theorem State.sampleSound_shouldDraw : (s.sampleSound).shouldDraw = s.shouldDraw := rfl
@[simp] theorem State.sampleSound_shouldPlaySound : (s.sampleSound).shouldPlaySound = (s.st == 1) := rfl
@[simp] theorem State.sampleSound_invalid : (s.sampleSound).invalid = s.invalid := rfl
@[simp] theorem State.sampleSound_invalidOpcode : (s.sampleSound).invalidOpcode = s.invalidOpcode := rfl
@[simp] theorem State.sampleSound_faulted : (s.sampleSound).faulted = s.faulted := rfl
@[simp] theorem State.sampleSound_faultCode : (s.sampleSound).faultCode = s.faultCode := rfl
@[simp] theorem State.sampleSound_boot : (s.sampleSound).boot = s.boot := rfl
@[simp] theorem State.sampleSound_params : (s.sampleSound).params = s.params := rfl
@[simp] theorem State.sampleSound_inputs : (s.sampleSound).inputs = s.inputs := rfl
@[simp] theorem State.sampleSound_tickIndex : (s.sampleSound).tickIndex = s.tickIndex := rfl
@[simp] theorem State.sampleSound_reg (x : Nibble) : (s.sampleSound).reg x = s.reg x := rfl
@[simp] theorem State.sampleSound_byteAt (a : Nat) : (s.sampleSound).byteAt a = s.byteAt a := rfl
@[simp] theorem State.sampleSound_effAddr (k : Nat) : (s.sampleSound).effAddr k = s.effAddr k := rfl
@[simp] theorem State.sampleSound_pastStore (k : Nat) : (s.sampleSound).pastStore k = s.pastStore k := rfl
@[simp] theorem State.sampleSound_keys : (s.sampleSound).keys = s.keys := rfl
@[simp] theorem State.sampleSound_rnd : (s.sampleSound).rnd = s.rnd := rfl

/-! ### State.decrementTimers -/

@[simp] theorem State.decrementTimers_v : (s.decrementTimers).v = s.v := rfl
@[simp] theorem State.decrementTimers_pc : (s.decrementTimers).pc = s.pc := rfl
@[simp] theorem State.decrementTimers_index : (s.decrementTimers).index = s.index := rfl
@[simp] theorem State.decrementTimers_stack : (s.decrementTimers).stack = s.stack := rfl
@[simp] theorem State.decrementTimers_sp : (s.decrementTimers).sp = s.sp := rfl
@[simp] theorem State.decrementTimers_dt : (s.decrementTimers).dt = countDown s.dt := rfl
@[simp] theorem State.decrementTimers_st : (s.decrementTimers).st = countDown s.st := rfl
@[simp] theorem State.decrementTimers_fb : (s.decrementTimers).fb = s.fb := rfl
@[simp] theorem State.decrementTimers_mem : (s.decrementTimers).mem = s.mem := rfl
@[simp] theorem State.decrementTimers_shouldDraw : (s.decrementTimers).shouldDraw = s.shouldDraw := rfl
@[simp] theorem State.decrementTimers_shouldPlaySound : (s.decrementTimers).shouldPlaySound = s.shouldPlaySound := rfl
@[simp] theorem State.decrementTimers_invalid : (s.decrementTimers).invalid = s.invalid := rfl
@[simp] theorem State.decrementTimers_invalidOpcode : (s.decrementTimers).invalidOpcode = s.invalidOpcode := rfl
@[simp] theorem State.decrementTimers_faulted : (s.decrementTimers).faulted = s.faulted := rfl
@[simp] theorem State.decrementTimers_faultCode : (s.decrementTimers).faultCode = s.faultCode := rfl
@[simp] theorem State.decrementTimers_boot : (s.decrementTimers).boot = s.boot := rfl
@[simp] theorem State.decrementTimers_params : (s.decrementTimers).params = s.params := rfl
@[simp] theorem State.decrementTimers_inputs : (s.decrementTimers).inputs = s.inputs := rfl
@[simp] theorem State.decrementTimers_tickIndex : (s.decrementTimers).tickIndex = s.tickIndex := rfl
@[simp] theorem State.decrementTimers_reg (x : Nibble) : (s.decrementTimers).reg x = s.reg x := rfl
@[simp] theorem State.decrementTimers_byteAt (a : Nat) : (s.decrementTimers).byteAt a = s.byteAt a := rfl
@[simp] theorem State.decrementTimers_effAddr (k : Nat) : (s.decrementTimers).effAddr k = s.effAddr k := rfl
@[simp] theorem State.decrementTimers_pastStore (k : Nat) : (s.decrementTimers).pastStore k = s.pastStore k := rfl
@[simp] theorem State.decrementTimers_keys : (s.decrementTimers).keys = s.keys := rfl
@[simp] theorem State.decrementTimers_rnd : (s.decrementTimers).rnd = s.rnd := rfl

/-! ### State.setOutputs -/

@[simp] theorem State.setOutputs_v (i : Instr) : (s.setOutputs i).v = s.v := rfl
@[simp] theorem State.setOutputs_pc (i : Instr) : (s.setOutputs i).pc = s.pc := rfl
@[simp] theorem State.setOutputs_index (i : Instr) : (s.setOutputs i).index = s.index := rfl
@[simp] theorem State.setOutputs_stack (i : Instr) : (s.setOutputs i).stack = s.stack := rfl
@[simp] theorem State.setOutputs_sp (i : Instr) : (s.setOutputs i).sp = s.sp := rfl
@[simp] theorem State.setOutputs_dt (i : Instr) : (s.setOutputs i).dt = s.dt := rfl
@[simp] theorem State.setOutputs_st (i : Instr) : (s.setOutputs i).st = s.st := rfl
@[simp] theorem State.setOutputs_fb (i : Instr) : (s.setOutputs i).fb = s.fb := rfl
@[simp] theorem State.setOutputs_mem (i : Instr) : (s.setOutputs i).mem = s.mem := rfl
@[simp] theorem State.setOutputs_shouldDraw (i : Instr) : (s.setOutputs i).shouldDraw = drawsScreen i := rfl
@[simp] theorem State.setOutputs_shouldPlaySound (i : Instr) : (s.setOutputs i).shouldPlaySound = s.shouldPlaySound := rfl
@[simp] theorem State.setOutputs_invalid (i : Instr) : (s.setOutputs i).invalid = (invalidWord i).isSome := rfl
@[simp] theorem State.setOutputs_invalidOpcode (i : Instr) : (s.setOutputs i).invalidOpcode = (invalidWord i).getD 0 := rfl
@[simp] theorem State.setOutputs_faulted (i : Instr) : (s.setOutputs i).faulted = s.faulted := rfl
@[simp] theorem State.setOutputs_faultCode (i : Instr) : (s.setOutputs i).faultCode = s.faultCode := rfl
@[simp] theorem State.setOutputs_boot (i : Instr) : (s.setOutputs i).boot = s.boot := rfl
@[simp] theorem State.setOutputs_params (i : Instr) : (s.setOutputs i).params = s.params := rfl
@[simp] theorem State.setOutputs_inputs (i : Instr) : (s.setOutputs i).inputs = s.inputs := rfl
@[simp] theorem State.setOutputs_tickIndex (i : Instr) : (s.setOutputs i).tickIndex = s.tickIndex := rfl
@[simp] theorem State.setOutputs_reg (i : Instr) (x : Nibble) : (s.setOutputs i).reg x = s.reg x := rfl
@[simp] theorem State.setOutputs_byteAt (i : Instr) (a : Nat) : (s.setOutputs i).byteAt a = s.byteAt a := rfl
@[simp] theorem State.setOutputs_effAddr (i : Instr) (k : Nat) : (s.setOutputs i).effAddr k = s.effAddr k := rfl
@[simp] theorem State.setOutputs_pastStore (i : Instr) (k : Nat) : (s.setOutputs i).pastStore k = s.pastStore k := rfl
@[simp] theorem State.setOutputs_keys (i : Instr) : (s.setOutputs i).keys = s.keys := rfl
@[simp] theorem State.setOutputs_rnd (i : Instr) : (s.setOutputs i).rnd = s.rnd := rfl

/-! ### State.closeTick -/

@[simp] theorem State.closeTick_v : (s.closeTick).v = s.v := rfl
@[simp] theorem State.closeTick_pc : (s.closeTick).pc = s.pc := rfl
@[simp] theorem State.closeTick_index : (s.closeTick).index = s.index := rfl
@[simp] theorem State.closeTick_stack : (s.closeTick).stack = s.stack := rfl
@[simp] theorem State.closeTick_sp : (s.closeTick).sp = s.sp := rfl
@[simp] theorem State.closeTick_dt : (s.closeTick).dt = s.dt := rfl
@[simp] theorem State.closeTick_st : (s.closeTick).st = s.st := rfl
@[simp] theorem State.closeTick_fb : (s.closeTick).fb = s.fb := rfl
@[simp] theorem State.closeTick_mem : (s.closeTick).mem = s.mem := rfl
@[simp] theorem State.closeTick_shouldDraw : (s.closeTick).shouldDraw = s.shouldDraw := rfl
@[simp] theorem State.closeTick_shouldPlaySound : (s.closeTick).shouldPlaySound = s.shouldPlaySound := rfl
@[simp] theorem State.closeTick_invalid : (s.closeTick).invalid = s.invalid := rfl
@[simp] theorem State.closeTick_invalidOpcode : (s.closeTick).invalidOpcode = s.invalidOpcode := rfl
@[simp] theorem State.closeTick_faulted : (s.closeTick).faulted = s.faulted := rfl
@[simp] theorem State.closeTick_faultCode : (s.closeTick).faultCode = s.faultCode := rfl
@[simp] theorem State.closeTick_boot : (s.closeTick).boot = .ticking := rfl
@[simp] theorem State.closeTick_params : (s.closeTick).params = s.params := rfl
@[simp] theorem State.closeTick_inputs : (s.closeTick).inputs = s.inputs.tail := rfl
@[simp] theorem State.closeTick_tickIndex : (s.closeTick).tickIndex = s.tickIndex + 1 := rfl
@[simp] theorem State.closeTick_reg (x : Nibble) : (s.closeTick).reg x = s.reg x := rfl
@[simp] theorem State.closeTick_byteAt (a : Nat) : (s.closeTick).byteAt a = s.byteAt a := rfl
@[simp] theorem State.closeTick_effAddr (k : Nat) : (s.closeTick).effAddr k = s.effAddr k := rfl
@[simp] theorem State.closeTick_pastStore (k : Nat) : (s.closeTick).pastStore k = s.pastStore k := rfl

end Sys2Proof.Machine
end

