-- ==== Sys2Proof/Laws/Ops.lean ====
section
/-! SUPPORT. What each shared operation does: registers, flags, memory through the state, pixels, timers, faults, key tests. -/

namespace Sys2Proof.Machine

/-! ## Registers -/

/-- A register read after a register write. -/
@[simp] theorem State.writeReg_reg (s : State) (x : Nibble) (b : Byte) (k : Nibble) :
    (s.writeReg x b).reg k = if k = x then b else s.reg k := by
  simp only [State.reg, State.writeReg_v, Vector.getElem_set]
  by_cases h : k = x
  · simp [h]
  · have : x.toNat ≠ k.toNat := fun e => h (BitVec.eq_of_toNat_eq e.symm)
    simp [h, this]

/-- A register read after a flag write (R21). -/
@[simp] theorem State.writeFlag_reg (s : State) (c : Bool) (k : Nibble) :
    (s.writeFlag c).reg k = if k = 0xF then (if c then 1 else 0) else s.reg k :=
  State.writeReg_reg s 0xF _ k

/-- A register read after all registers are written. -/
@[simp] theorem State.writeRegs_reg (s : State) (w : Vector Byte 16) (k : Nibble) :
    (s.writeRegs w).reg k = w[k.toNat]'k.isLt := rfl

/-- A register after an ALU result without a flag: VX holds the result, the others are as before. -/
@[simp] theorem State.aluResult_reg (s : State) (x : Nibble) (r : Byte) (k : Nibble) :
    (s.aluResult x r).reg k = if k = x then r else s.reg k := by
  simp [State.aluResult]

/-- A register after an ALU result with its flag: VF holds the flag, VX else the result (R141). -/
@[simp] theorem State.aluFlagged_reg (s : State) (x : Nibble) (r : Byte) (c : Bool) (k : Nibble) :
    (s.aluFlagged x r c).reg k =
      if k = 0xF then (if c then 1 else 0) else if k = x then r else s.reg k := by
  simp [State.aluFlagged]

/-- An ALU result writes V and pc and nothing else. -/
theorem State.aluResult_frame (s : State) (x : Nibble) (r : Byte) :
    s.aluResult x r = { s with v := (s.aluResult x r).v, pc := s.pc + 2 } := rfl

/-- An ALU result with its flag writes V and pc and nothing else. -/
theorem State.aluFlagged_frame (s : State) (x : Nibble) (r : Byte) (c : Bool) :
    s.aluFlagged x r c = { s with v := (s.aluFlagged x r c).v, pc := s.pc + 2 } := rfl

/-! ## Memory through the state -/

/-- A byte read after bytes are written: the bytes in their places, every other address as before. -/
@[simp] theorem State.writeMem_byteAt (s : State) (a : Nat) (bs : List Byte) (k : Nat) :
    (s.writeMem a bs).byteAt k =
      if hk : a ≤ k ∧ k - a < bs.length then bs[k - a]'hk.2 else s.byteAt k :=
  Memory.read_writeBytes s.mem a bs k

/-- The effective address of offset k is past the store exactly when I + k > 0xFFF (R57). -/
theorem State.pastStore_iff (s : State) (k : Nat) : s.pastStore k = true ↔ s.index.toNat + k > 0xFFF := by
  simp [State.pastStore, State.effAddr]

/-- The registers FX55 stores: register k in place k (R175). -/
theorem State.regsUpTo_length (s : State) (x : Nibble) : (s.regsUpTo x).length = x.toNat + 1 := by
  have := x.isLt
  simp [State.regsUpTo]
  omega

/-! ## Pixels -/

/-- A pixel of the blank framebuffer is 0 (R190). -/
@[simp] theorem FrameBuffer.pixel_blank (x : BitVec 6) (y : BitVec 5) :
    FrameBuffer.pixel FrameBuffer.blank x y = false := by
  simp [FrameBuffer.pixel, FrameBuffer.blank]

/-- A pixel after one pixel is turned over. -/
theorem FrameBuffer.pixel_toggle (fb : FrameBuffer) (x u : BitVec 6) (y w : BitVec 5) :
    FrameBuffer.pixel (fb.toggle x y) u w =
      if u = x ∧ w = y then !(FrameBuffer.pixel fb u w) else FrameBuffer.pixel fb u w := by
  simp only [FrameBuffer.pixel, FrameBuffer.toggle, Vector.getElem_set]
  by_cases hw : w = y
  · subst hw
    have hbit : (1#64 <<< x.toNat).getLsbD u.toNat = decide (u = x) := by
      have hu : u.toNat < 64 := u.isLt
      have hx : x.toNat < 64 := x.isLt
      simp only [BitVec.getLsbD_shiftLeft, BitVec.getLsbD_one, hu, decide_true, Bool.true_and]
      by_cases h : u = x
      · simp [h]
      · have : u.toNat ≠ x.toNat := fun e => h (BitVec.eq_of_toNat_eq e)
        simp [h]
        omega
    by_cases h : u = x
    · have hx : x.toNat < 64 := x.isLt
      simp [h, hx]
    · simp [h, BitVec.getLsbD_xor, hbit]
  · have : y.toNat ≠ w.toNat := fun e => hw (BitVec.eq_of_toNat_eq e.symm)
    simp [hw, this]

/-- Two framebuffers with the same pixels are equal. -/
theorem FrameBuffer.ext_pixel (f g : FrameBuffer)
    (h : ∀ x y, FrameBuffer.pixel f x y = FrameBuffer.pixel g x y) : f = g := by
  apply Vector.ext
  intro y hy
  apply BitVec.eq_of_getLsbD_eq
  intro x hx
  have := h (BitVec.ofNat 6 x) (BitVec.ofNat 5 y)
  simpa [FrameBuffer.pixel, Nat.mod_eq_of_lt hx, Nat.mod_eq_of_lt hy] using this

/-! ## Timers -/

/-- A timer after a count-down, as a number: one less, and 0 stays 0 (R105). -/
theorem countDown_toNat (t : Byte) : (countDown t).toNat = t.toNat - 1 := by
  unfold countDown
  split
  · next h => simp [h]
  · next h =>
    have : t.toNat ≠ 0 := fun e => h (BitVec.eq_of_toNat_eq (by simpa using e))
    have := t.isLt
    rw [BitVec.toNat_sub]
    simp
    omega

/-! ## Faults and key tests -/

/-- A fault's code is one of 1 to 6 (R231). -/
theorem FaultKind.code_range (k : FaultKind) : 1 ≤ k.code.toNat ∧ k.code.toNat ≤ 6 := by
  cases k <;> decide

/-- What a key test does: the key fault, or a skip (R213, R214, R216). -/
theorem State.keyTest_cases (s : State) (key : Byte) (wanted : Bool) :
    (key.toNat > 15 ∧ s.keyTest key wanted = s.raiseFault .keyRange) ∨
    (key.toNat ≤ 15 ∧ s.keyTest key wanted = s.skipIf (keyPressed s.keys key.toNat == wanted)) := by
  unfold State.keyTest
  split
  · next h => exact .inl ⟨h, rfl⟩
  · next h => exact .inr ⟨by omega, rfl⟩

/-- The lowest pressed key is pressed, and no lower key is (R215). -/
theorem lowestKey_spec (keys : Word) (h : keys ≠ 0) :
    keyPressed keys (lowestKey keys).toNat = true ∧
      ∀ j, j < (lowestKey keys).toNat → keyPressed keys j = false := by
  unfold lowestKey
  cases hf : (List.range 16).find? (keyPressed keys) with
  | none =>
    refine absurd (BitVec.eq_of_getLsbD_eq fun i hi => ?_) h
    have := List.find?_eq_none.1 hf i (by simpa using hi)
    simpa [keyPressed] using this
  | some k =>
    have hp := List.find?_some hf
    have hm : k < 16 := by simpa using List.mem_of_find?_eq_some hf
    have hk : (BitVec.ofNat 4 k).toNat = k := by simp; omega
    simp only [hk]
    refine ⟨hp, fun j hj => ?_⟩
    have := (List.find?_range_eq_some.1 hf).2.2 j hj
    simpa using this

/-- Every policy of KEY_SELECT picks a pressed key (D15). -/
theorem selectKey_pressed (p : KeySelect) (keys : Word) (h : keys ≠ 0) :
    keyPressed keys (selectKey p keys).toNat = true := by
  unfold selectKey
  cases p with
  | lowestPressed => exact (lowestKey_spec keys h).1
  | implementation =>
    simp only
    split
    · assumption
    · exact (lowestKey_spec keys h).1

end Sys2Proof.Machine
end

