-- ==== Sys2Proof/Laws/Display.lean ====
section
/-! SUPPORT. What the sprite blitter does, said once: a draw turns over exactly the covered pixels of the framebuffer it started from, and hits when one of them was 1 (spec/44_display.md R191, R192). -/

namespace Sys2Proof.Machine

/-- A blitter that started from fb0 and has turned over exactly the pixels of P. -/
def TurnedOver (fb0 : FrameBuffer) (P : BitVec 6 → BitVec 5 → Prop) (acc : Blit) : Prop :=
  (∀ px py, P px py → acc.fb.pixel px py = !fb0.pixel px py) ∧
  (∀ px py, ¬ P px py → acc.fb.pixel px py = fb0.pixel px py) ∧
  (acc.hit = true ↔ ∃ px py, P px py ∧ fb0.pixel px py = true)

theorem TurnedOver.congr {fb0 : FrameBuffer} {P Q : BitVec 6 → BitVec 5 → Prop} {acc : Blit}
    (h : TurnedOver fb0 P acc) (e : ∀ px py, P px py ↔ Q px py) : TurnedOver fb0 Q acc := by
  have : P = Q := by funext a b; exact propext (e a b)
  rwa [← this]

/-- Columns of one sprite row land on different pixel columns. -/
theorem spriteColumn_inj (x0 : Byte) (a b : Nat) (ha : a < 8) (hb : b < 8)
    (h : spriteColumn x0 a = spriteColumn x0 b) : a = b := by
  have := congrArg BitVec.toNat h
  simp [spriteColumn] at this
  omega

/-- Rows of one sprite land on different pixel rows. -/
theorem spriteRow_inj (y0 : Byte) (a b : Nat) (ha : a < 16) (hb : b < 16)
    (h : spriteRow y0 a = spriteRow y0 b) : a = b := by
  have := congrArg BitVec.toNat h
  simp [spriteRow] at this
  omega

/-- One bit, on a pixel not turned over yet. -/
theorem blitBit_turnedOver (fb0 : FrameBuffer) (P : BitVec 6 → BitVec 5 → Prop) (x0 y0 : Byte) (row : Nat)
    (b : Byte) (acc : Blit) (col : Nat) (h : TurnedOver fb0 P acc)
    (hP : ¬ P (spriteColumn x0 col) (spriteRow y0 row)) :
    TurnedOver fb0 (fun px py => P px py ∨
      (b.getLsbD (7 - col) = true ∧ px = spriteColumn x0 col ∧ py = spriteRow y0 row))
      (blitBit x0 y0 row b acc col) := by
  obtain ⟨h1, h2, h3⟩ := h
  unfold blitBit
  cases hb : b.getLsbD (7 - col)
  · simp only [Bool.false_eq_true, if_false, false_and, or_false]
    exact ⟨h1, h2, h3⟩
  · simp only [if_true, true_and]
    refine ⟨fun px py h => ?_, fun px py h => ?_, ?_⟩
    · rw [FrameBuffer.pixel_toggle]
      rcases h with h | ⟨rfl, rfl⟩
      · rw [if_neg (by rintro ⟨rfl, rfl⟩; exact hP h)]
        exact h1 _ _ h
      · rw [if_pos ⟨rfl, rfl⟩, h2 _ _ hP]
    · rw [not_or] at h
      rw [FrameBuffer.pixel_toggle, if_neg h.2]
      exact h2 _ _ h.1
    · simp only [Bool.or_eq_true, h3, h2 _ _ hP]
      constructor
      · rintro (⟨px, py, h⟩ | h)
        · exact ⟨px, py, .inl h.1, h.2⟩
        · exact ⟨_, _, .inr ⟨rfl, rfl⟩, h⟩
      · rintro ⟨px, py, h | ⟨rfl, rfl⟩, hx⟩
        · exact .inl ⟨px, py, h, hx⟩
        · exact .inr hx

/-- The first n columns of one sprite row, none of whose pixels is turned over yet. -/
theorem blitCols_turnedOver (fb0 : FrameBuffer) (P : BitVec 6 → BitVec 5 → Prop) (x0 y0 : Byte) (row : Nat)
    (b : Byte) (acc : Blit) (h : TurnedOver fb0 P acc)
    (hP : ∀ col, ¬ P (spriteColumn x0 col) (spriteRow y0 row)) (n : Nat) (hn : n ≤ 8) :
    TurnedOver fb0 (fun px py => P px py ∨
      ∃ col < n, b.getLsbD (7 - col) = true ∧ px = spriteColumn x0 col ∧ py = spriteRow y0 row)
      ((List.range n).foldl (blitBit x0 y0 row b) acc) := by
  induction n with
  | zero => exact h.congr (by simp)
  | succ n ih =>
    rw [List.range_succ, List.foldl_append]
    refine (blitBit_turnedOver fb0 _ x0 y0 row b _ n (ih (by omega)) ?_).congr fun px py => ?_
    · rintro (h | ⟨col, hc, _, h, _⟩)
      · exact hP _ h
      · have := spriteColumn_inj x0 n col (by omega) (by omega) h
        omega
    · constructor
      · rintro ((h | ⟨c, h1, h2⟩) | h)
        · exact .inl h
        · exact .inr ⟨c, by omega, h2⟩
        · exact .inr ⟨n, by omega, h⟩
      · rintro (h | ⟨c, h1, h2⟩)
        · exact .inl (.inl h)
        · by_cases hc : c = n
          · subst hc
            exact .inr h2
          · exact .inl (.inr ⟨c, by omega, h2⟩)

/-- The n rows of a sprite, from a framebuffer in which nothing is turned over yet. -/
theorem blitRows_turnedOver (fb0 : FrameBuffer) (x0 y0 : Byte) (f : Nat → Byte) (n : Nat) (hn : n ≤ 16) :
    TurnedOver fb0 (fun px py => ∃ row < n, ∃ col < 8, (f row).getLsbD (7 - col) = true ∧
      px = spriteColumn x0 col ∧ py = spriteRow y0 row) (blitRows x0 y0 f n ⟨fb0, false⟩) := by
  unfold blitRows
  induction n with
  | zero => exact ⟨by simp, by simp, by simp⟩
  | succ n ih =>
    rw [List.range_succ, List.foldl_append]
    refine (blitCols_turnedOver fb0 _ x0 y0 n (f n) _ (ih (by omega)) ?_ 8 (by omega)).congr fun px py => ?_
    · rintro col ⟨row, h1, c, _, _, _, h⟩
      have := spriteRow_inj y0 n row (by omega) (by omega) h
      omega
    · constructor
      · rintro (⟨r, h1, h2⟩ | h)
        · exact ⟨r, by omega, h2⟩
        · exact ⟨n, by omega, h⟩
      · rintro ⟨r, h1, h2⟩
        by_cases hc : r = n
        · subst hc
          exact .inr h2
        · exact .inl ⟨r, by omega, h2⟩

/-- A draw turns over exactly the pixels the sprite covers. -/
theorem State.drawSprite_turnedOver (s : State) (x0 y0 : Byte) (n : Nibble) :
    TurnedOver s.fb (SpriteCovers s x0 y0 n) (s.drawSprite x0 y0 n) := by
  refine (blitRows_turnedOver s.fb x0 y0 _ n.toNat (by omega)).congr fun px py => ?_
  simp only [SpriteCovers, State.effAddr]
  have hx : ∀ col, px = spriteColumn x0 col ↔ px.toNat = (x0.toNat + col) % 64 := fun col => by
    rw [← BitVec.toNat_inj]; simp [spriteColumn]
  have hy : ∀ row, py = spriteRow y0 row ↔ py.toNat = (y0.toNat + row) % 32 := fun row => by
    rw [← BitVec.toNat_inj]; simp [spriteRow]
  constructor
  · rintro ⟨r, h1, c, h2, h3, h4, h5⟩
    exact ⟨r, c, h1, h2, h3, (hx c).1 h4, (hy r).1 h5⟩
  · rintro ⟨r, c, h1, h2, h3, h4, h5⟩
    exact ⟨r, h1, c, h2, h3, (hx c).2 h4, (hy r).2 h5⟩

end Sys2Proof.Machine
end

