-- ==== Sys2Proof/Laws/PerInstr.lean ====
section
/-! SUPPORT. Statements made per instruction: each instruction's word is taken by the row of the decoder table the instruction belongs to (spec/30_encoding.md R72). -/

namespace Sys2Proof.Laws.EncodesToItsRow

open Sys2Proof

/-- The row of the decoder table an instruction belongs to takes the instruction's word (R72). -/
def Statement (i : Instr) : Prop := ∀ p, i.pattern = some p → p.accepts (encodeWord i) = true

/-- A row that fixes T alone takes the words built on T. -/
theorem of_maskT {i : Instr} (t : Nibble) (hp : i.pattern = some ⟨0xF000, wordNNN t 0⟩)
    (ht : fieldT (encodeWord i) = t) : Statement i := by
  intro p h
  obtain rfl := Option.some.inj (hp.symm.trans h)
  exact (accepts_maskT t _).2 ht

/-- A row that fixes T and N takes the words built on both. -/
theorem of_maskTN {i : Instr} (t n : Nibble) (hp : i.pattern = some ⟨0xF00F, wordXYN t 0 0 n⟩)
    (ht : fieldT (encodeWord i) = t) (hn : fieldN (encodeWord i) = n) : Statement i := by
  intro p h
  obtain rfl := Option.some.inj (hp.symm.trans h)
  exact (accepts_maskTN t n _).2 ⟨ht, hn⟩

/-- A row that fixes T and NN takes the words built on both. -/
theorem of_maskTNN {i : Instr} (t : Nibble) (nn : Byte) (hp : i.pattern = some ⟨0xF0FF, wordXNN t 0 nn⟩)
    (ht : fieldT (encodeWord i) = t) (hn : fieldNN (encodeWord i) = nn) : Statement i := by
  intro p h
  obtain rfl := Option.some.inj (hp.symm.trans h)
  exact (accepts_maskTNN t nn _).2 ⟨ht, hn⟩

theorem cls : Statement .cls := by
  intro p h; cases h; decide

theorem ret : Statement .ret := by
  intro p h; cases h; decide

theorem jp (nnn : Addr12) : Statement (.jp nnn) :=
  of_maskT 0x1 rfl (by simp [encodeWord])

theorem call (nnn : Addr12) : Statement (.call nnn) :=
  of_maskT 0x2 rfl (by simp [encodeWord])

theorem seImm (x : Nibble) (nn : Byte) : Statement (.seImm x nn) :=
  of_maskT 0x3 rfl (by simp [encodeWord])

theorem sneImm (x : Nibble) (nn : Byte) : Statement (.sneImm x nn) :=
  of_maskT 0x4 rfl (by simp [encodeWord])

theorem seReg (x y : Nibble) : Statement (.seReg x y) :=
  of_maskTN 0x5 0x0 rfl (by simp [encodeWord]) (by simp [encodeWord])

theorem ldImm (x : Nibble) (nn : Byte) : Statement (.ldImm x nn) :=
  of_maskT 0x6 rfl (by simp [encodeWord])

theorem addImm (x : Nibble) (nn : Byte) : Statement (.addImm x nn) :=
  of_maskT 0x7 rfl (by simp [encodeWord])

theorem ldReg (x y : Nibble) : Statement (.ldReg x y) :=
  of_maskTN 0x8 0x0 rfl (by simp [encodeWord]) (by simp [encodeWord])

theorem orReg (x y : Nibble) : Statement (.orReg x y) :=
  of_maskTN 0x8 0x1 rfl (by simp [encodeWord]) (by simp [encodeWord])

theorem andReg (x y : Nibble) : Statement (.andReg x y) :=
  of_maskTN 0x8 0x2 rfl (by simp [encodeWord]) (by simp [encodeWord])

theorem xorReg (x y : Nibble) : Statement (.xorReg x y) :=
  of_maskTN 0x8 0x3 rfl (by simp [encodeWord]) (by simp [encodeWord])

theorem addReg (x y : Nibble) : Statement (.addReg x y) :=
  of_maskTN 0x8 0x4 rfl (by simp [encodeWord]) (by simp [encodeWord])

theorem subReg (x y : Nibble) : Statement (.subReg x y) :=
  of_maskTN 0x8 0x5 rfl (by simp [encodeWord]) (by simp [encodeWord])

theorem shr (x y : Nibble) : Statement (.shr x y) :=
  of_maskTN 0x8 0x6 rfl (by simp [encodeWord]) (by simp [encodeWord])

theorem subn (x y : Nibble) : Statement (.subn x y) :=
  of_maskTN 0x8 0x7 rfl (by simp [encodeWord]) (by simp [encodeWord])

theorem shl (x y : Nibble) : Statement (.shl x y) :=
  of_maskTN 0x8 0xE rfl (by simp [encodeWord]) (by simp [encodeWord])

theorem sneReg (x y : Nibble) : Statement (.sneReg x y) :=
  of_maskTN 0x9 0x0 rfl (by simp [encodeWord]) (by simp [encodeWord])

theorem ldI (nnn : Addr12) : Statement (.ldI nnn) :=
  of_maskT 0xA rfl (by simp [encodeWord])

theorem jpV0 (nnn : Addr12) : Statement (.jpV0 nnn) :=
  of_maskT 0xB rfl (by simp [encodeWord])

theorem rnd (x : Nibble) (nn : Byte) : Statement (.rnd x nn) :=
  of_maskT 0xC rfl (by simp [encodeWord])

theorem drw (x y n : Nibble) : Statement (.drw x y n) :=
  of_maskT 0xD rfl (by simp [encodeWord])

theorem skp (x : Nibble) : Statement (.skp x) :=
  of_maskTNN 0xE 0x9E rfl (by simp [encodeWord]) (by simp [encodeWord])

theorem sknp (x : Nibble) : Statement (.sknp x) :=
  of_maskTNN 0xE 0xA1 rfl (by simp [encodeWord]) (by simp [encodeWord])

theorem ldVxDT (x : Nibble) : Statement (.ldVxDT x) :=
  of_maskTNN 0xF 0x07 rfl (by simp [encodeWord]) (by simp [encodeWord])

theorem ldVxK (x : Nibble) : Statement (.ldVxK x) :=
  of_maskTNN 0xF 0x0A rfl (by simp [encodeWord]) (by simp [encodeWord])

theorem ldDT (x : Nibble) : Statement (.ldDT x) :=
  of_maskTNN 0xF 0x15 rfl (by simp [encodeWord]) (by simp [encodeWord])

theorem ldST (x : Nibble) : Statement (.ldST x) :=
  of_maskTNN 0xF 0x18 rfl (by simp [encodeWord]) (by simp [encodeWord])

theorem addI (x : Nibble) : Statement (.addI x) :=
  of_maskTNN 0xF 0x1E rfl (by simp [encodeWord]) (by simp [encodeWord])

theorem ldF (x : Nibble) : Statement (.ldF x) :=
  of_maskTNN 0xF 0x29 rfl (by simp [encodeWord]) (by simp [encodeWord])

theorem ldB (x : Nibble) : Statement (.ldB x) :=
  of_maskTNN 0xF 0x33 rfl (by simp [encodeWord]) (by simp [encodeWord])

theorem storeRegs (x : Nibble) : Statement (.storeRegs x) :=
  of_maskTNN 0xF 0x55 rfl (by simp [encodeWord]) (by simp [encodeWord])

theorem loadRegs (x : Nibble) : Statement (.loadRegs x) :=
  of_maskTNN 0xF 0x65 rfl (by simp [encodeWord]) (by simp [encodeWord])

theorem invalid (op : Word) : Statement (.invalid op) := by
  intro p h; cases h

end Sys2Proof.Laws.EncodesToItsRow
end

