-- ==== Sys2Proof/Laws/Step.lean ====
section
/-! SUPPORT. What the execute phase and a step can do, said once: exec always answers a next state, and a step is one of four cases. -/

namespace Sys2Proof.Machine

/-- Every instruction answers a next state (R256): a fault of the block is a next state too (R232). -/
theorem exec_next (i : Instr) (s : State) : ∃ t, exec i s = .next t := by
  cases i <;> exact ⟨_, rfl⟩

/-- The execute phase writes neither the boot phase, nor the parameters, nor the inputs, nor the tick number. -/
theorem exec_frame (i : Instr) (s t : State) (h : exec i s = .next t) :
    t.boot = s.boot ∧ t.params = s.params ∧ t.inputs = s.inputs ∧ t.tickIndex = s.tickIndex := by
  cases i <;> simp only [exec, execCls, execRet, execJp, execCall, execSeImm, execSneImm, execSeReg, execSneReg,
    execJpV0, execInvalid, execLdImm, execAddImm, execLdReg, execOrReg, execAndReg, execXorReg, execAddReg,
    execSubReg, execShr, execSubn, execShl, execRnd, execLdI, execAddI, execLdF, execLdB, execStoreRegs,
    execLoadRegs, execDrw, execLdVxDT, execLdDT, execLdST, execSkp, execSknp, execLdVxK, State.keyTest,
    State.aluResult, State.aluFlagged, Host.Outcome.next.injEq] at h <;> subst h
  all_goals first
    | (split <;> simp)
    | simp

/-- The word at pc decodes, always (R75). -/
theorem decode_bytes (hi lo : Byte) (rest : List Byte) :
    decode (hi :: lo :: rest) = .decoded (decodeWord (wordOfBytes hi lo)) rest := rfl

/-- The fetch finds the two bytes at pc, or the word does not lie in the store (R52, R53). -/
theorem fetchBytes_cases (s : State) :
    (s.pc.toNat + 1 > 0xFFF ∧ s.fetchBytes = none) ∨
    (s.pc.toNat + 1 ≤ 0xFFF ∧
      s.fetchBytes = some [s.byteAt s.pc.toNat, s.byteAt (s.pc.toNat + 1)]) := by
  unfold State.fetchBytes
  split
  · next h => exact .inl ⟨h, rfl⟩
  · next h => exact .inr ⟨by omega, rfl⟩

/-- What a step can do: stop after a refused load; nothing, faulted; a fetch fault; or run the instruction at pc. -/
theorem step_cases (s : State) :
    (s.boot = .loadRefused ∧ step s = .fault .startupAborted) ∨
    (s.boot ≠ .loadRefused ∧ s.faulted = true ∧ step s = .next s.faultedTick) ∨
    (s.boot ≠ .loadRefused ∧ s.faulted = false ∧ s.pc.toNat + 1 > 0xFFF ∧
      step s = .next (s.raiseFault .fetchRange).closeTick) ∨
    (s.boot ≠ .loadRefused ∧ s.faulted = false ∧ s.pc.toNat + 1 ≤ 0xFFF ∧
      step s = runInstr (decodeWord (wordOfBytes (s.byteAt s.pc.toNat) (s.byteAt (s.pc.toNat + 1)))) s) := by
  unfold step tick
  by_cases hb : s.boot = .loadRefused
  · exact .inl ⟨hb, by rw [if_pos hb]⟩
  · refine .inr ?_
    rw [if_neg hb]
    cases hf : s.faulted
    · refine .inr ?_
      rcases fetchBytes_cases s with ⟨hp, h⟩ | ⟨hp, h⟩
      · exact .inl ⟨hb, rfl, hp, by simp [runningTick, h]⟩
      · exact .inr ⟨hb, rfl, hp, by simp [runningTick, h, decode_bytes]⟩
    · exact .inl ⟨hb, rfl, rfl⟩

/-- Running an instruction is its execute phase and then the phases after it. -/
theorem runInstr_of_exec (i : Instr) (s t : State) (h : exec i s = .next t) :
    runInstr i s = .next (t.afterExecute i).closeTick := by
  unfold runInstr
  rw [h]

/-- The phases after the execute phase write the timers, the outputs and the model's own fields, nothing else. -/
theorem State.afterExecute_frame (u : State) (i : Instr) :
    (u.afterExecute i).closeTick =
      { u with dt := (u.afterExecute i).dt, st := (u.afterExecute i).st,
               shouldDraw := (u.afterExecute i).shouldDraw, shouldPlaySound := (u.afterExecute i).shouldPlaySound,
               invalid := (u.afterExecute i).invalid, invalidOpcode := (u.afterExecute i).invalidOpcode,
               inputs := u.inputs.tail, tickIndex := u.tickIndex + 1, boot := .ticking } := by
  unfold State.afterExecute
  split <;> rfl

/-- A step that answers a next state either executes the instruction at pc or, not executing, leaves registers,
pc, stack, pixels, memory, timers and parameters alone. -/
theorem step_executes_or_rests (s t : State) (h : step s = .next t) :
    (s.canExecute ∧ ∃ u, exec s.current s = .next u ∧ t = (u.afterExecute s.current).closeTick) ∨
    (¬ s.canExecute ∧
      t = { s with faulted := t.faulted, faultCode := t.faultCode, shouldDraw := false, shouldPlaySound := false,
                   invalid := false, invalidOpcode := 0, inputs := t.inputs, tickIndex := t.tickIndex,
                   boot := t.boot }) := by
  rcases step_cases s with ⟨_, h1⟩ | ⟨_, hf, h1⟩ | ⟨_, _, hp, h1⟩ | ⟨hb, hf, hp, h1⟩ <;> rw [h1] at h
  · cases h
  · cases h
    exact .inr ⟨fun hc => (by rw [hc.2.1] at hf; cases hf), rfl⟩
  · cases h
    exact .inr ⟨fun hc => (by have := hc.2.2; omega), rfl⟩
  · obtain ⟨u, hu⟩ := exec_next s.current s
    refine .inl ⟨⟨hb, hf, hp⟩, u, hu, ?_⟩
    have := runInstr_of_exec _ _ _ hu
    change runInstr s.current s = _ at h
    rw [this] at h
    cases h
    rfl

end Sys2Proof.Machine
end

