-- ==== Sys2Proof/Tests/Slice0.lean ====
section
/-! SUPPORT. The model's own tests, with the expected results of spec/95_test_vectors.md (each test names its vectors), and for every statement of Certificates/Slice0/Obligations.lean that has hypotheses a witness that meets them. -/

namespace Sys2Proof.Tests

open Sys2Proof Sys2Proof.Machine

/-! ## Helpers -/

/-- The start state of a vector: the reset state with some registers set, and one tick with no key and RND = 0. -/
def start (regs : List (Nibble × Byte)) : State :=
  regs.foldl (fun s p => s.writeReg p.1 p.2) { State.reset with inputs := [⟨0, 0⟩] }

/-- The start state with the index register set. -/
def startI (i : Word) (regs : List (Nibble × Byte)) : State := (start regs).writeIndex i

/-- The state with given keys and random byte for the tick. -/
def given (keys : Word) (rnd : Byte) (s : State) : State := { s with inputs := [⟨keys, rnd⟩] }

/-- A stack with one entry set. -/
def stackWith (k : Fin 64) (w : Word) : Vector Word 64 := (Vector.replicate 64 0).set k.val w k.isLt

/-- A framebuffer with the given pixels lit. -/
def lit (pixels : List (BitVec 6 × BitVec 5)) : FrameBuffer :=
  pixels.foldl (fun fb p => fb.toggle p.1 p.2) FrameBuffer.blank

/-- The state after a tick, if there is one. -/
def next (s : State) : Option State :=
  match step s with
  | .next t => some t
  | .fault _ => none
  | .refused _ => none

/-- One tick with a word placed where the step fetches. -/
def run (w : Nat) (s : State) : Option State := next (s.withFetchWord 16 w)

/-- What a faulting tick left: FAULTED, FAULT_CODE, pc. -/
def faultOf (t : State) : Bool × BitVec 3 × Word := (t.faulted, t.faultCode, t.pc)

/-- What a flag instruction left: VX, VF, pc. -/
def aluOf (x : Nibble) (t : State) : Byte × Byte × Word := (t.reg x, t.reg 0xF, t.pc)

/-! ## WellFormed, Decode -/

/-- The one check of wellFormed refuses an Invalid that holds an instruction's word, and takes one that does not. -/
theorem test_wellFormed_invalid :
    (Instr.invalid 0x00E0).wellFormed = false ∧ (Instr.invalid 0x800E).wellFormed = false ∧
    (Instr.invalid 0xF165).wellFormed = false ∧ (Instr.invalid 0x5121).wellFormed = true := by decide

/-- Words written out bit by bit from the patterns of R72: control transfer. -/
theorem test_decode_control :
    decodeWord 0b0000000011101110 = .ret ∧ decodeWord 0b0001000100100011 = .jp 0x123 ∧
    decodeWord 0b0010101010111100 = .call 0xABC ∧ decodeWord 0b0011010111001000 = .seImm 5 0xC8 ∧
    decodeWord 0b0100011000010010 = .sneImm 6 0x12 ∧ decodeWord 0b0101000100100000 = .seReg 1 2 ∧
    decodeWord 0b1001110000110000 = .sneReg 0xC 3 ∧ decodeWord 0b1011000100100011 = .jpV0 0x123 := by decide

/-- Words written out bit by bit from the patterns of R72: the ALU. -/
theorem test_decode_alu :
    decodeWord 0b0110111110000001 = .ldImm 0xF 0x81 ∧ decodeWord 0b0111001111111111 = .addImm 3 0xFF ∧
    decodeWord 0b1000000100100000 = .ldReg 1 2 ∧ decodeWord 0b1000010101100001 = .orReg 5 6 ∧
    decodeWord 0b1000001101110010 = .andReg 3 7 ∧ decodeWord 0b1000100110000011 = .xorReg 9 8 ∧
    decodeWord 0b1000000000100100 = .addReg 0 2 ∧ decodeWord 0b1000000000100101 = .subReg 0 2 ∧
    decodeWord 0b1000010001100110 = .shr 4 6 ∧ decodeWord 0b1000101000010111 = .subn 0xA 1 ∧
    decodeWord 0b1000101111011110 = .shl 0xB 0xD ∧ decodeWord 0b1100001000001111 = .rnd 2 0x0F := by decide

/-- Words written out bit by bit from the patterns of R72: index, memory, display. -/
theorem test_decode_index_display :
    decodeWord 0b1010001100000000 = .ldI 0x300 ∧ decodeWord 0b1111001100011110 = .addI 3 ∧
    decodeWord 0b1111011100101001 = .ldF 7 ∧ decodeWord 0b1111010000110011 = .ldB 4 ∧
    decodeWord 0b1111000101010101 = .storeRegs 1 ∧ decodeWord 0b1111001001100101 = .loadRegs 2 ∧
    decodeWord 0b0000000011100000 = .cls ∧ decodeWord 0b1101001000110101 = .drw 2 3 5 := by decide

/-- Words written out bit by bit from the patterns of R72: timers, keys, Invalid. -/
theorem test_decode_timers_keys :
    decodeWord 0b1111000100000111 = .ldVxDT 1 ∧ decodeWord 0b1111001000001010 = .ldVxK 2 ∧
    decodeWord 0b1111000000010101 = .ldDT 0 ∧ decodeWord 0b1111010000011000 = .ldST 4 ∧
    decodeWord 0b1110010110011110 = .skp 5 ∧ decodeWord 0b1110011010100001 = .sknp 6 ∧
    decodeWord 0b0000000100100011 = .invalid 0x0123 ∧ decodeWord 0b1111000011111111 = .invalid 0xF0FF := by decide

/-- The encoder writes the same words (R72), and fewer than two bytes hold no instruction (R70). -/
theorem test_encode :
    encode (.drw 2 3 5) = [0xD2, 0x35] ∧ encode (.loadRegs 2) = [0xF2, 0x65] ∧ encode (.call 0xABC) = [0x2A, 0xBC] ∧
    decode [0x80] = .rejected .truncated := by decide

/-- Table words: a row of 16 bits; more than 16 bits is no instruction here. -/
theorem test_tableWord :
    decodeTableWord 16 0x8024 = some (.addReg 0 2) ∧ decodeTableWord 32 0x8024 = none := by decide

/-! ## Memory and the host -/

/-- A write keeps the canonical form: rising addresses, the default byte not listed (FONT at 0, zero at 0x300). -/
theorem test_memory_canonical :
    (Memory.write (Memory.write [] 0x301 5) 0x300 7) = [(0x300, 7), (0x301, 5)] ∧
    Memory.write [(0x300, 7), (0x301, 5)] 0x300 0 = [(0x301, 5)] ∧ Memory.write [(0, 1)] 0 0xF0 = [] ∧
    Memory.wf [(0x301, 5), (0x300, 7)] = false ∧ Memory.wf [(0x300, 0)] = false ∧ Memory.wf [(4096, 1)] = false := by
  decide

/-- Glyph A at 0x032 after reset (P7), nothing above the font. -/
theorem test_reset_font :
    [0x32, 0x33, 0x34, 0x35, 0x36, 0x50].map State.reset.byteAt = [0xF0, 0x90, 0xF0, 0x90, 0x90, 0] := by decide

/-- A load puts the image at 0x200 and is taken once (E3, R56). -/
theorem test_load_twice :
    [0x200, 0x201].map (hostLoad [1] (hostLoad [0x80, 0x25] State.reset)).byteAt = [0x80, 0x25] := by decide

/-- E3: the loaded bytes 80 25 run as SUB V0, V2. -/
theorem test_load_then_step :
    (next (hostLoad [0x80, 0x25] (start [(0, 1), (2, 2)]))).map (aluOf 0) = some (0xFF, 0, 0x202) := by decide

/-- X11: a reset leaves the reset state. -/
theorem test_reset_after_fault : ((run 0x00EE State.reset).map hostReset).map (·.faulted) = some false := by decide

/-- After a tick no load is taken (R56). -/
theorem test_load_after_tick :
    ((run 0x1200 State.reset).map (hostLoad [0xAB])).map (·.byteAt 0x200) = some 0x12 := by decide

/-! ## Control transfer -/

/-- B1. -/
theorem test_ret :
    (run 0x00EE { start [] with sp := 1, stack := stackWith 0 0x306 }).map (fun t => (t.pc, t.sp)) =
      some (0x306, 0) := by decide

/-- B2, X9: the fault, and no decrement. -/
theorem test_ret_underflow :
    (run 0x00EE { start [] with dt := 5 }).map (fun t => (faultOf t, t.dt)) = some ((true, 4, 0x200), 5) := by decide

/-- B3. -/
theorem test_jp : (run 0x1ABC (start [])).map (·.pc) = some 0xABC := by decide

/-- B4: the tick after a jump to FFF faults at its fetch. -/
theorem test_jp_last_byte : ((run 0x1FFF (start [])).bind next).map faultOf = some (true, 1, 0xFFF) := by decide

/-- B6. -/
theorem test_call :
    (run 0x2400 { start [] with sp := 63 }).map (fun t => (t.pc, t.sp, t.stack[63], t.stack[62])) =
      some (0x400, 64, 0x202, 0) := by decide

/-- B7. -/
theorem test_call_overflow :
    (run 0x2400 { start [] with sp := 64 }).map (fun t => (faultOf t, t.sp)) = some ((true, 3, 0x200), 64) := by decide

/-- B8, B9. -/
theorem test_seImm :
    (run 0x3012 (start [(0, 0x12)])).map (·.pc) = some 0x204 ∧
    (run 0x3012 (start [(0, 0x13)])).map (·.pc) = some 0x202 := by decide

/-- B19. -/
theorem test_seImm_end :
    (run 0x3000 { start [] with pc := 0xFFC }).map (·.pc) = some 0x1000 := by decide

/-- B10, B11. -/
theorem test_sneImm :
    (run 0x4012 (start [(0, 0x12)])).map (·.pc) = some 0x202 ∧
    (run 0x4012 (start [(0, 0x13)])).map (·.pc) = some 0x204 := by decide

/-- B12, B13. -/
theorem test_seReg :
    (run 0x5120 (start [(1, 7), (2, 7)])).map (·.pc) = some 0x204 ∧
    (run 0x5120 (start [(1, 7), (2, 8)])).map (·.pc) = some 0x202 := by decide

/-- B14, B15. -/
theorem test_sneReg :
    (run 0x9120 (start [(1, 7), (2, 7)])).map (·.pc) = some 0x202 ∧
    (run 0x9120 (start [(1, 7), (2, 8)])).map (·.pc) = some 0x204 := by decide

/-- B16, B17. -/
theorem test_jpV0 :
    (run 0xB300 (start [(0, 4)])).map (·.pc) = some 0x304 ∧
    (run 0xBFF0 (start [(0, 0xFF)])).map (·.pc) = some 0x0EF := by decide

/-- X7: the report, the sound sample and the decrement of an Invalid word's tick. -/
theorem test_invalid :
    (run 0x5121 { start [] with dt := 2, st := 1 }).map
      (fun t => (t.pc, t.invalid, t.invalidOpcode, t.dt, t.st, t.shouldPlaySound)) =
      some (0x202, true, 0x5121, 1, 0, true) := by decide

/-- X8: the second tick faults and clears the report. -/
theorem test_invalid_end :
    ((run 0x5121 { start [] with pc := 0xFFE }).bind next).map (fun t => (faultOf t, t.invalid)) =
      some ((true, 1, 0x1000), false) := by decide

/-! ## ALU -/

/-- A24. -/
theorem test_ldImm : (run 0x65C8 (start [])).map (aluOf 5) = some (0xC8, 0, 0x202) := by decide

/-- A25. -/
theorem test_ldImm_VF : (run 0x6F00 (start [(0xF, 1)])).map (aluOf 0xF) = some (0, 0, 0x202) := by decide

/-- A27. -/
theorem test_addImm_wraps :
    (run 0x7001 (start [(0, 0xFF), (0xF, 0x77)])).map (aluOf 0) = some (0, 0x77, 0x202) := by decide

/-- A28. -/
theorem test_addImm_VF : (run 0x7F01 (start [(0xF, 0xFF)])).map (aluOf 0xF) = some (0, 0, 0x202) := by decide

/-- E4. -/
theorem test_ldReg :
    (run 0x8120 (start [(1, 0), (2, 0x34), (0xF, 0x55)])).map (aluOf 1) = some (0x34, 0x55, 0x202) := by decide

/-- E4. -/
theorem test_orReg :
    (run 0x8121 (start [(1, 0x0F), (2, 0xF0), (0xF, 0x55)])).map (aluOf 1) = some (0xFF, 0x55, 0x202) := by decide

/-- E4. -/
theorem test_andReg :
    (run 0x8122 (start [(1, 0x3C), (2, 0x0F), (0xF, 0x55)])).map (aluOf 1) = some (0x0C, 0x55, 0x202) := by decide

/-- E4. -/
theorem test_xorReg :
    (run 0x8123 (start [(1, 0xFF), (2, 0x0F), (0xF, 0x55)])).map (aluOf 1) = some (0xF0, 0x55, 0x202) := by decide

/-- A3, A4. -/
theorem test_addReg :
    (run 0x8014 (start [(0, 0xFF), (1, 1)])).map (aluOf 0) = some (0, 1, 0x202) ∧
    (run 0x8014 (start [(0, 0x7F), (1, 0x80)])).map (aluOf 0) = some (0xFF, 0, 0x202) := by decide

/-- A19, A21: VF as destination and as source. -/
theorem test_addReg_VF :
    (run 0x8F14 (start [(0xF, 0xFF), (1, 2)])).map (aluOf 0xF) = some (1, 1, 0x202) ∧
    (run 0x81F4 (start [(1, 0x10), (0xF, 1)])).map (aluOf 1) = some (0x11, 0, 0x202) := by decide

/-- A5, A6. -/
theorem test_subReg :
    (run 0x8015 (start [(0, 5), (1, 5)])).map (aluOf 0) = some (0, 1, 0x202) ∧
    (run 0x8015 (start [(0, 0), (1, 1)])).map (aluOf 0) = some (0xFF, 0, 0x202) := by decide

/-- A20. -/
theorem test_subReg_VF : (run 0x8F15 (start [(0xF, 1), (1, 2)])).map (aluOf 0xF) = some (0, 0, 0x202) := by decide

/-- A12, A13. -/
theorem test_shr :
    (run 0x8016 (start [(0, 0xFE)])).map (aluOf 0) = some (0x7F, 0, 0x202) ∧
    (run 0x8016 (start [(0, 3), (1, 0xFF)])).map (aluOf 0) = some (1, 1, 0x202) := by decide

/-- A22. -/
theorem test_shr_VF : (run 0x8FF6 (start [(0xF, 3)])).map (aluOf 0xF) = some (1, 1, 0x202) := by decide

/-- A8, A9, A10. -/
theorem test_subn :
    (run 0x8017 (start [(0, 5), (1, 5)])).map (aluOf 0) = some (0, 1, 0x202) ∧
    (run 0x8017 (start [(0, 1), (1, 0)])).map (aluOf 0) = some (0xFF, 0, 0x202) ∧
    (run 0x8017 (start [(0, 1), (1, 0x10)])).map (aluOf 0) = some (0x0F, 1, 0x202) := by decide

/-- A14, A15, under the default SHL_FLAG_MASK. -/
theorem test_shl :
    (run 0x801E (start [(0, 0x80)])).map (aluOf 0) = some (0, 0, 0x202) ∧
    (run 0x801E (start [(0, 8)])).map (aluOf 0) = some (0x10, 1, 0x202) := by decide

/-- A17, A18, under SHL_FLAG_MASK = 80. -/
theorem test_shl_mask80 :
    (run 0x801E { start [(0, 0x80)] with params := { defaultParams with shlFlagMask := 0x80 } }).map (aluOf 0) =
      some (0, 1, 0x202) ∧
    (run 0x801E { start [(0, 8)] with params := { defaultParams with shlFlagMask := 0x80 } }).map (aluOf 0) =
      some (0x10, 0, 0x202) := by decide

/-- A29. -/
theorem test_rnd : (run 0xC20F (given 0 0xA7 (start []))).map (aluOf 2) = some (7, 0, 0x202) := by decide

/-! ## Index register and memory -/

/-- M1. -/
theorem test_ldI : (run 0xA300 (start [])).map (fun t => (t.index, t.pc)) = some (0x300, 0x202) := by decide

/-- M3, M4, M5. -/
theorem test_addI :
    (run 0xF11E (startI 0xFFF [(1, 1)])).map (fun t => (t.index, t.reg 0xF)) = some (0x1000, 1) ∧
    (run 0xF11E (startI 0xFFE [(1, 1)])).map (fun t => (t.index, t.reg 0xF)) = some (0xFFF, 0) ∧
    (run 0xF01E (startI 0x1000 [])).map (fun t => (t.index, t.reg 0xF)) = some (0x1000, 1) := by decide

/-- M7, M8. -/
theorem test_addI_overflow :
    (run 0xF11E (startI 0xFFFF [(1, 1)])).map (fun t => (faultOf t, t.index)) = some ((true, 6, 0x200), 0xFFFF) ∧
    (run 0xFF1E (startI 0x100 [(0xF, 0x10)])).map (fun t => (t.index, t.reg 0xF)) = some (0x110, 0) := by decide

/-- M9, M11. -/
theorem test_ldF :
    (run 0xF729 (start [(7, 0xA)])).map (·.index) = some 0x32 ∧
    (run 0xF029 (start [(0, 0xFF)])).map (·.index) = some 0x4FB := by decide

/-- M16: three bytes up to the last of the store. -/
theorem test_ldB :
    (run 0xF033 (startI 0xFFD [(0, 0xFF)])).map (fun t => ([0xFFD, 0xFFE, 0xFFF].map t.byteAt, t.index)) =
      some ([2, 5, 5], 0xFFD) := by decide

/-- M17. -/
theorem test_ldB_past :
    (run 0xF033 (startI 0xFFE [(0, 0xFF)])).map (fun t => (faultOf t, [0xFFE, 0xFFF].map t.byteAt)) =
      some ((true, 2, 0x200), [0, 0]) := by decide

/-- M18. -/
theorem test_storeRegs :
    (run 0xF155 (startI 0x300 [(0, 0xFF), (1, 0x81), (2, 9)])).map
      (fun t => ([0x300, 0x301, 0x302].map t.byteAt, t.index, t.pc)) = some ([0xFF, 0x81, 0], 0x302, 0x202) := by decide

/-- M21. -/
theorem test_storeRegs_past :
    (run 0xFF55 (startI 0xFF1 [(0, 1)])).map (fun t => (faultOf t, t.byteAt 0xFF1, t.index)) =
      some ((true, 2, 0x200), 0, 0xFF1) := by decide

/-- M22. -/
theorem test_loadRegs :
    (run 0xF265 ((startI 0x300 [(3, 9)]).writeMem 0x300 [2, 5, 4, 8])).map
      (fun t => ([0, 1, 2, 3].map t.reg, t.index)) = some ([2, 5, 4, 9], 0x303) := by decide

/-- M24. -/
theorem test_loadRegs_past : (run 0xF065 (startI 0x1000 [])).map faultOf = some (true, 2, 0x200) := by decide

/-! ## Display -/

/-- G1. -/
theorem test_cls :
    (run 0x00E0 { start [] with fb := lit [(0, 0), (63, 31)] }).map (fun t => (t.fb, t.shouldDraw)) =
      some (FrameBuffer.blank, true) := by decide

/-- G2: both wraps. -/
theorem test_drw_wraps :
    (run 0xD232 ((startI 0x300 [(2, 0x3C), (3, 0x1F)]).writeMem 0x300 [0xFF, 0x81])).map
      (fun t => (t.fb, t.reg 0xF, t.shouldDraw)) =
      some (lit ([(60, 31), (61, 31), (62, 31), (63, 31), (0, 31), (1, 31), (2, 31), (3, 31)] ++
        [(60, 0), (3, 0)]), 0, true) := by decide

/-- G4, G8: a collision; a sprite past the store. -/
theorem test_drw_collision :
    (run 0xD011 { (startI 0x300 []).writeMem 0x300 [0x80] with fb := lit [(0, 0)] }).map
      (fun t => (t.fb, t.reg 0xF)) = some (FrameBuffer.blank, 1) ∧
    (run 0xD01F (startI 0xFF2 [])).map faultOf = some (true, 2, 0x200) := by decide

/-! ## Timers and keys -/

/-- K1. -/
theorem test_ldVxDT :
    (run 0xF107 { start [] with dt := 5 }).map (fun t => (t.reg 1, t.dt)) = some (5, 4) := by decide

/-- K4, K5. -/
theorem test_ldDT :
    (run 0xF015 (start [(0, 3)])).map (·.dt) = some 2 ∧
    (run 0xF015 { start [] with dt := 9 }).map (·.dt) = some 0 := by decide

/-- K7, K8. -/
theorem test_ldST :
    (run 0xF418 (start [(4, 1)])).map (fun t => (t.st, t.shouldPlaySound)) = some (0, true) ∧
    (run 0xF018 { start [] with st := 1 }).map (fun t => (t.st, t.shouldPlaySound)) = some (0, false) := by decide

/-- K12, K13. -/
theorem test_skp :
    (run 0xE59E (given (1 <<< 10) 0 (start [(5, 0xA)]))).map (·.pc) = some 0x204 ∧
    (run 0xE59E (given (1 <<< 9) 0 (start [(5, 0xA)]))).map (·.pc) = some 0x202 := by decide

/-- K18. -/
theorem test_skp_range :
    (run 0xE59E (given 0xFFFF 0 (start [(5, 0x10)]))).map faultOf = some (true, 5, 0x200) := by decide

/-- K14, K15. -/
theorem test_sknp :
    (run 0xE5A1 (start [(5, 0xA)])).map (·.pc) = some 0x204 ∧
    (run 0xE5A1 (given (1 <<< 10) 0 (start [(5, 0xA)]))).map (·.pc) = some 0x202 := by decide

/-- K19. -/
theorem test_sknp_range : (run 0xE5A1 (start [(5, 0xFF)])).map faultOf = some (true, 5, 0x200) := by decide

/-- K20, K23. -/
theorem test_ldVxK :
    (run 0xF20A (given 0x0208 0 { start [] with pc := 0x300 })).map (fun t => (t.reg 2, t.pc)) = some (3, 0x302) ∧
    (run 0xFF0A (given 0x8000 0 (start [(0xF, 1)]))).map (fun t => (t.reg 0xF, t.pc)) = some (0xF, 0x202) := by decide

/-- K22: no key; pc stays and the timer counts. -/
theorem test_ldVxK_none :
    (run 0xF20A { start [] with pc := 0x300, dt := 3 }).map (fun t => (t.reg 2, t.pc, t.dt)) =
      some (0, 0x300, 2) := by decide

/-! ## The tick -/

/-- K11: both timers; K9: the sound sample at 1. -/
theorem test_timers :
    (run 0x6000 { start [] with dt := 0xFF, st := 0xFF }).map (fun t => (t.dt, t.st, t.shouldPlaySound)) =
      some (0xFE, 0xFE, false) ∧
    (run 0x6000 { start [] with st := 1 }).map (fun t => (t.st, t.shouldPlaySound)) = some (0, true) := by decide

/-- X10: a faulted block changes nothing. -/
theorem test_faulted :
    ((run 0x00EE { start [] with dt := 5 }).bind next).map (fun t => (faultOf t, t.dt)) =
      some ((true, 4, 0x200), 5) := by decide

/-! ## Witnesses: states and operands that meet the hypotheses of each statement -/

/-- A state that runs, in the middle of a call, with something in memory: it meets the invariant. -/
def busy : State :=
  { (startI 0x300 [(0, 1), (1, 2), (0xF, 3)]).writeMem 0x200 [0x60, 0x0A] with
      sp := 1, stack := stackWith 0 0x400, dt := 2, st := 1 }

/-- A faulted state: a return from an empty stack. -/
def stopped : State := (start []).raiseFault .stackUnderflow

theorem witness_DecodeEncodeRoundTrip :
    (Instr.drw 2 0xF 3).wellFormed = true ∧ (Instr.cls).wellFormed = true ∧ (Instr.invalid 0xF0FF).wellFormed = true := by
  decide

/-- The longest image, the empty one, and the second load. -/
theorem witness_LoadWritesTheImage :
    State.reset.boot = .awaitingLoad ∧ (List.replicate 3584 (0x12 : Byte)).length ≤ 3584 ∧
    ([] : List Byte).length ≤ 3584 := by
  refine ⟨rfl, ?_, Nat.zero_le _⟩
  rw [List.length_replicate]

theorem witness_OversizeLoadAdmitsNoTick :
    State.reset.boot = .awaitingLoad ∧ 3584 < (List.replicate 3585 (0x12 : Byte)).length := by
  refine ⟨rfl, ?_⟩
  rw [List.length_replicate]
  exact Nat.lt_succ_self 3584

/-- The last word of the store. -/
theorem witness_FetchIsBigEndian : ({ busy with pc := 0xFFE } : State).pc.toNat + 1 ≤ 0xFFF := by decide

theorem witness_StepRunsDecodedInstruction :
    busy.canExecute ∧
    decode [busy.byteAt busy.pc.toNat, busy.byteAt (busy.pc.toNat + 1)] = .decoded (.ldImm 0 0x0A) [] := by decide

theorem witness_PlacedWordIsExecuted :
    busy.canExecute ∧ ({ busy with pc := 0xFFE } : State).canExecute ∧ 0xFFFF < 2 ^ 16 := by decide

/-- A tick that draws, and one that does not. -/
theorem witness_ShouldDrawExactlyAfterDrawing :
    (∃ t, step (busy.withFetchWord 16 0xD011) = .next t ∧ t.shouldDraw = true) ∧
    (∃ t, step busy = .next t ∧ t.shouldDraw = false) := ⟨⟨_, rfl, by decide⟩, ⟨_, rfl, by decide⟩⟩

/-- A tick whose execute phase leaves ST at 1, and one that leaves it at 2. -/
theorem witness_SoundFlagSamplesBeforeDecrement :
    (∃ u t, busy.canExecute ∧ exec busy.current busy = .next u ∧ u.faulted = false ∧ step busy = .next t ∧
      u.st.toNat = 1) ∧
    (∃ u t, State.canExecute { busy with st := 2 } ∧
      exec (State.current { busy with st := 2 }) { busy with st := 2 } = .next u ∧ u.faulted = false ∧
      step { busy with st := 2 } = .next t ∧ u.st.toNat = 2) :=
  ⟨⟨_, _, by decide, rfl, by decide, rfl, by decide⟩, ⟨_, _, by decide, rfl, by decide, rfl, by decide⟩⟩

/-- Timers at 2 and 1 and at 0, under an instruction that writes neither. -/
theorem witness_TimersCountDownEachTick :
    (∃ u t, busy.canExecute ∧ exec busy.current busy = .next u ∧ u.faulted = false ∧ step busy = .next t ∧
      (∀ x, busy.current ≠ .ldDT x) ∧ ∀ x, busy.current ≠ .ldST x) ∧
    (∃ u t, (start []).canExecute ∧ exec (start []).current (start []) = .next u ∧ u.faulted = false ∧
      step (start []) = .next t ∧ u.dt = 0 ∧ u.st = 0) :=
  ⟨⟨_, _, by decide, rfl, by decide, rfl, by decide, by decide⟩, ⟨_, _, by decide, rfl, by decide, rfl, rfl, rfl⟩⟩

theorem witness_InvalidWordIsReportedAndSkipped :
    (start []).canExecute ∧ (start []).current = .invalid 0x0000 ∧
    (busy.withFetchWord 16 0xF0FF).canExecute ∧ (busy.withFetchWord 16 0xF0FF).current = .invalid 0xF0FF := by decide

theorem witness_StartedBlockNeverStops :
    busy.boot ≠ .loadRefused ∧ State.reset.boot ≠ .loadRefused ∧ stopped.boot ≠ .loadRefused := by decide

/-- The last byte of the store, and the first address past it. -/
theorem witness_FetchPastStoreFaults :
    State.Safe { busy with pc := 0xFFF } ∧ 0xFFF ≤ ({ busy with pc := 0xFFF } : State).pc.toNat ∧
    State.Safe { busy with pc := 0x1000 } ∧ 0xFFF ≤ ({ busy with pc := 0x1000 } : State).pc.toNat := by decide

/-- A coherent faulted state, and one whose outputs are not 0. -/
theorem witness_FaultedBlockDoesNothing :
    stopped.boot ≠ .loadRefused ∧ stopped.faulted = true ∧ stopped.FaultCoherent ∧
    ({ stopped with shouldDraw := true } : State).faulted = true ∧
    ¬ State.FaultCoherent { stopped with shouldDraw := true } := by decide

theorem witness_FaultsArePrecise :
    ∃ t, step ((start []).withFetchWord 16 0x00EE) = .next t ∧
      ((start []).withFetchWord 16 0x00EE).faulted = false ∧ t.faulted = true := ⟨_, rfl, by decide, by decide⟩

/-- Each cause at its boundary, and just below it. -/
theorem witness_FaultsExactlyOnTheirCauses :
    busy.faulted = false ∧
    (startI 0xFFE []).index.toNat + 2 > 0xFFF ∧ ¬ (startI 0xFFD []).index.toNat + 2 > 0xFFF ∧
    (startI 0xFFF []).index.toNat + (1 : Nibble).toNat > 0xFFF ∧
    ¬ (startI 0xFFF []).index.toNat + (0 : Nibble).toNat > 0xFFF ∧
    (startI 0x1000 []).index.toNat + (1 : Nibble).toNat - 1 > 0xFFF ∧
    ({ busy with sp := 64 } : State).sp.val = 64 ∧ State.reset.sp.val = 0 ∧
    ((start [(5, 16)]).reg 5).toNat > 15 ∧ ¬ ((start [(5, 15)]).reg 5).toNat > 15 ∧
    (startI 0xFFFF [(1, 1)]).index.toNat + ((startI 0xFFFF [(1, 1)]).reg 1).toNat > 0xFFFF := by decide

/-- The stack full, one below full, and empty. -/
theorem witness_CallPushesReturnAddress :
    ({ busy with sp := 64 } : State).sp.val = 64 ∧ ({ busy with sp := 63 } : State).sp.val < 64 ∧
    State.reset.sp.val < 64 := by decide

/-- The stack empty, with one entry, and full. -/
theorem witness_ReturnPopsIntoPc :
    State.reset.sp.val = 0 ∧ busy.sp.val = (0 : Fin 64).val + 1 ∧
    ({ busy with sp := 64 } : State).sp.val = (63 : Fin 64).val + 1 := by decide

theorem witness_CallThenReturnComesBack :
    State.reset.sp.val < 64 ∧ ({ busy with sp := 63 } : State).sp.val < 64 := by decide

theorem witness_CopyAndLogicSetRegister :
    ((.orReg 1 2, or) : Instr × (Bool → Bool → Bool)) ∈
      [(.ldReg 1 2, fun _ b => b), (.orReg 1 2, or), (.andReg 1 2, and), (.xorReg 1 2, xor)] := by simp

/-- A carry and none, a borrow and none, equal operands. -/
theorem witness_AddAndSubtractSetFlag :
    ((start [(0, 0xFF), (1, 1)]).reg 0).toNat = 255 ∧ ((start [(0, 0xFF), (1, 1)]).reg 1).toNat = 1 ∧ 255 + 1 > 255 ∧
    ((start [(0, 0xFE), (1, 1)]).reg 0).toNat = 254 ∧ ¬ 254 + 1 > 255 ∧
    ((start [(0, 5), (1, 5)]).reg 0).toNat = ((start [(0, 5), (1, 5)]).reg 1).toNat ∧
    ((start [(0, 0), (1, 1)]).reg 0).toNat = 0 := by decide

/-- Bits 0 and 3 set, and clear; the default mask. -/
theorem witness_ShiftsSetFlag :
    ((start [(0, 9)]).reg 0).toNat = 9 ∧ ((start [(0, 0xF6)]).reg 0).toNat = 0xF6 ∧
    (start []).params.shlFlagMask = 0x08 := by decide

/-- The sums 0xFFF, 0x1000, 0xFFFF and 0x10000. -/
theorem witness_AddIndexSetsFlag :
    0xFFF = (startI 0xFFE [(1, 1)]).index.toNat + ((startI 0xFFE [(1, 1)]).reg 1).toNat ∧
    0x1000 = (startI 0xFFF [(1, 1)]).index.toNat + ((startI 0xFFF [(1, 1)]).reg 1).toNat ∧
    0xFFFF = (startI 0xFFFE [(1, 1)]).index.toNat + ((startI 0xFFFE [(1, 1)]).reg 1).toNat ∧
    0x10000 = (startI 0xFFFF [(1, 1)]).index.toNat + ((startI 0xFFFF [(1, 1)]).reg 1).toNat := by decide

theorem witness_BcdStoresDigits :
    0xFFD = (startI 0xFFD [(0, 0xFF)]).index.toNat ∧ 255 = ((startI 0xFFD [(0, 0xFF)]).reg 0).toNat ∧ 0xFFD + 2 ≤ 0xFFF ∧
    0xFFE = (startI 0xFFE [(0, 0xFF)]).index.toNat ∧ 0xFFE + 2 > 0xFFF := by decide

/-- The dump and the load of all sixteen registers at the last place that holds them, and one past it. -/
theorem witness_DumpStoresRegisters :
    0xFF0 = (startI 0xFF0 []).index.toNat ∧ 0xFF0 + (0xF : Nibble).toNat ≤ 0xFFF ∧
    0xFF1 = (startI 0xFF1 []).index.toNat ∧ 0xFF1 + (0xF : Nibble).toNat > 0xFFF := by decide

theorem witness_LoadFillsRegisters :
    0xFFF = (startI 0xFFF []).index.toNat ∧ 0xFFF + (0 : Nibble).toNat ≤ 0xFFF ∧
    0x1000 = (startI 0x1000 []).index.toNat ∧ 0x1000 + (0 : Nibble).toNat > 0xFFF := by decide

theorem witness_LoadUndoesDump : (startI 0xFF0 [(0, 1)]).index.toNat + (0xF : Nibble).toNat ≤ 0xFFF := by decide

/-- V0 and V1, and all sixteen registers, over the next word. -/
theorem witness_StoreIsSeenByNextFetch :
    1 ≤ (1 : Nibble).toNat ∧ 1 ≤ (0xF : Nibble).toNat ∧
    (startI 0x202 [(0, 0x12)]).index.toNat + (0xF : Nibble).toNat ≤ 0xFFF ∧
    (startI 0x202 [(0, 0x12)]).index.toNat = (startI 0x202 [(0, 0x12)]).pc.toNat + 2 := by decide

/-- No row; the last rows that fit; the first that do not; a covered pixel and an uncovered one. -/
theorem witness_DrawTurnsOverCoveredPixels :
    (0 : Nibble).toNat = 0 ∧ (startI 0xFF1 []).index.toNat + (0xF : Nibble).toNat - 1 ≤ 0xFFF ∧
    0 < (0xF : Nibble).toNat ∧ (startI 0xFF2 []).index.toNat + (0xF : Nibble).toNat - 1 > 0xFFF ∧
    SpriteCovers (startI 0 []) 0xFF 0x1F 2 63 31 ∧ SpriteCovers (startI 0 []) 0xFF 0x1F 2 63 0 ∧
    ¬ SpriteCovers (startI 0 []) 0xFF 0x1F 0 63 31 := by
  refine ⟨by decide, by decide, by decide, by decide, ⟨0, 0, by decide⟩, ⟨1, 0, by decide⟩, ?_⟩
  rintro ⟨row, _, h, _⟩
  exact absurd h (Nat.not_lt_zero row)

/-- A draw that turns a lit pixel off, and one that turns none off, at a place where pixels are lit. -/
theorem witness_DrawCollision :
    (run 0xD011 { startI 0 [] with fb := lit [(0, 0)] }).map (fun t => (t.fb.pixel 0 0, t.reg 0xF)) = some (false, 1) ∧
    (run 0xD011 { startI 0 [] with fb := lit [(5, 0)] }).map (fun t => (t.fb.pixel 5 0, t.reg 0xF)) = some (true, 0) := by
  decide

theorem witness_DrawTwiceRestores :
    (0 : Nibble).toNat = 0 ∧ (startI 0xFF1 []).index.toNat + (0xF : Nibble).toNat - 1 ≤ 0xFFF := by decide

/-- Key 15 with its bit set, key 0 with its bit clear, key number 16; known inputs and free ones. -/
theorem witness_KeySkipsTestOneKey :
    0x8000 = (((given 0x8000 0 (start [(5, 15)])).inputs.head?.map TickInput.keys).getD (Config.keysAt 0)) ∧
    ((start [(5, 15)]).reg 5).toNat ≤ 15 ∧ (0x8000 : Word).getLsbD 15 = true ∧ (0x8000 : Word).getLsbD 0 = false ∧
    ((start [(5, 0)]).reg 5).toNat ≤ 15 ∧ ((start [(5, 16)]).reg 5).toNat > 15 ∧
    Config.keysAt 7 = (((State.reset.inputs.head?.map TickInput.keys).getD (Config.keysAt 7))) :=
  ⟨rfl, by decide, by decide, by decide, by decide, by decide, rfl⟩

theorem witness_KeyPollTakesPressedKey :
    (start []).keys = 0 ∧ (given 0x8001 0 (start [])).keys ≠ 0 ∧
    (given 0x8001 0 (start [])).params.keySelect = .lowestPressed := by decide

theorem witness_OnlyCallAndReturnWriteStack :
    (∃ t, step (busy.withFetchWord 16 0x2400) = .next t ∧
      t.stack ≠ (busy.withFetchWord 16 0x2400).stack) ∧
    (∃ t, step (busy.withFetchWord 16 0x00EE) = .next t ∧ t.sp ≠ (busy.withFetchWord 16 0x00EE).sp) :=
  ⟨⟨_, rfl, by decide⟩, ⟨_, rfl, by decide⟩⟩

theorem witness_OnlyClearAndDrawWritePixels :
    ∃ t, step ({ busy with index := 0 }.withFetchWord 16 0xD011) = .next t ∧
      t.fb ≠ (State.withFetchWord { busy with index := 0 } 16 0xD011).fb := ⟨_, rfl, by decide⟩

theorem witness_OnlyBcdAndDumpWriteMemory :
    ∃ t, step (busy.withFetchWord 16 0xF033) = .next t ∧ t.mem ≠ (busy.withFetchWord 16 0xF033).mem :=
  ⟨_, rfl, by decide⟩

theorem witness_OnlyFiveInstructionsWriteIndex :
    ∃ t, step (busy.withFetchWord 16 0xF155) = .next t ∧ t.index ≠ (busy.withFetchWord 16 0xF155).index :=
  ⟨_, rfl, by decide⟩

/-- A tick that changes VF as a flag, one that changes it as a destination. -/
theorem witness_FlagWritersOfVF :
    (∃ t, step (busy.withFetchWord 16 0x8014) = .next t ∧ t.reg 0xF ≠ (busy.withFetchWord 16 0x8014).reg 0xF ∧
      (busy.withFetchWord 16 0x8014).canExecute ∧ t.faulted = false ∧
      writesFlag (busy.withFetchWord 16 0x8014).current = true) ∧
    (∃ t, step (busy.withFetchWord 16 0x6F77) = .next t ∧ t.reg 0xF ≠ (busy.withFetchWord 16 0x6F77).reg 0xF) :=
  ⟨⟨_, rfl, by decide, by decide, by decide, by decide⟩, ⟨_, rfl, by decide⟩⟩

/-- An instruction that takes no input, and a key test and a random byte under other inputs of the same values. -/
theorem witness_InputsReachOnlyTheirInstructions :
    (∃ t, exec (.addReg 0 1) busy = .next t ∧ (∀ x, Instr.addReg 0 1 ≠ .skp x ∧ Instr.addReg 0 1 ≠ .sknp x ∧
      Instr.addReg 0 1 ≠ .ldVxK x) ∧ ∀ x nn, Instr.addReg 0 1 ≠ .rnd x nn) ∧
    (∃ t, exec (.skp 0) busy = .next t ∧
      State.keys { busy with inputs := [⟨0, 9⟩, ⟨1, 1⟩], tickIndex := 4 } = busy.keys ∧
      ∀ x nn, Instr.skp 0 ≠ .rnd x nn) ∧
    (∃ t, exec (.rnd 0 1) busy = .next t ∧
      (∀ x, Instr.rnd 0 1 ≠ .skp x ∧ Instr.rnd 0 1 ≠ .sknp x ∧ Instr.rnd 0 1 ≠ .ldVxK x) ∧
      State.rnd { busy with inputs := [⟨5, 0⟩], tickIndex := 4 } = busy.rnd) := by
  refine ⟨⟨_, rfl, ?_, ?_⟩, ⟨_, rfl, by decide, ?_⟩, ⟨_, rfl, ?_, by decide⟩⟩ <;> simp

theorem witness_ParametersNeverChange : ∃ t, step busy = .next t := ⟨_, rfl⟩

/-- A running state and a faulted one, each with a step. -/
theorem witness_StepKeepsInvariant :
    busy.Inv ∧ (∃ t, step busy = .next t) ∧ stopped.Inv ∧ ∃ t, step stopped = .next t :=
  ⟨by decide, ⟨_, rfl⟩, by decide, ⟨_, rfl⟩⟩

theorem witness_HostMovesKeepInvariant : busy.Inv ∧ stopped.Inv := by decide

end Sys2Proof.Tests
end

section
/-! The parameters FONT, SHL_FLAG_MASK and KEY_SELECT through a step and through the host's moves (logs 3, 19). -/

namespace Sys2Proof.Machine

/-- Phases 4 to 6 and the end of the tick leave the parameters alone. -/
@[simp] theorem State.closeTick_afterExecute_params (u : State) (i : Instr) :
    (u.afterExecute i).closeTick.params = u.params := by
  rw [State.afterExecute_frame]

theorem step_params {s t : State} (h : step s = .next t) : t.params = s.params := by
  rcases step_executes_or_rests s t h with ⟨_, u, hu, rfl⟩ | ⟨_, ht⟩
  · obtain ⟨_, hparams, _, _⟩ := exec_frame _ _ _ hu
    rw [State.closeTick_afterExecute_params, hparams]
  · rw [ht]

/-- A reset constructs the block again from the parameters it has (log 19). -/
@[simp] theorem hostReset_params (s : State) : (hostReset s).params = s.params := rfl

/-- A load leaves the parameters alone, whether it is accepted, refused for its length, or not taken (R56, log 8). -/
@[simp] theorem hostLoad_params (image : List Byte) (s : State) : (hostLoad image s).params = s.params := by
  unfold hostLoad
  split
  · split <;> rfl
  · rfl

/-- Settles O54: a step keeps the parameters because the execute phase and the phases after it do, and the
host's reset and load do not write them. -/
theorem parametersNeverChange : Obligations.ParametersNeverChange := by
  unfold Obligations.ParametersNeverChange
  exact ⟨fun _ _ => step_params, hostReset_params, hostLoad_params⟩

end Sys2Proof.Machine
end

section
/-! The effect of an instruction, said once: in which of a few ways the execute phase can leave the state. What a
step may write to the stack, the pixels, I and VF is read off it (10_state.md R21, R25, R27, R32). -/

namespace Sys2Proof.Machine

/-- What the execute phase of an instruction can make of a state: one constructor per set of elements written.
Instructions that write the same elements share one; it says which of them name VF, as flag or as destination (R21). -/
inductive ExecEffect (s : State) : Instr → State → Prop where
  /-- A fault: no element but FAULTED, FAULT_CODE and the outputs (R232). -/
  | fault {i : Instr} (k : FaultKind) : ExecEffect s i (s.raiseFault k)
  /-- Only pc. -/
  | jump {i : Instr} {a : Word} (hflag : writesFlag i = false) : ExecEffect s i (s.goto a)
  /-- Nothing: the key poll with no key pressed (R215). -/
  | wait {x : Nibble} : ExecEffect s (.ldVxK x) s
  | ret : ExecEffect s .ret (s.pop.goto s.stackTop)
  | call {nnn : Addr12} (h : s.sp.val < 64) :
      ExecEffect s (.call nnn) ((s.push (s.pc + 2) h).goto (addrWord nnn))
  /-- VX without a flag. -/
  | result {i : Instr} {x : Nibble} {r : Byte} (hflag : writesFlag i = false)
      (hdest : destinationVF i = (x == 0xF)) : ExecEffect s i (s.aluResult x r)
  /-- VX, then the flag (R141). -/
  | flagged {i : Instr} {x : Nibble} {r : Byte} {c : Bool} (hflag : writesFlag i = true) :
      ExecEffect s i (s.aluFlagged x r c)
  | ldDT {x : Nibble} {b : Byte} : ExecEffect s (.ldDT x) (s.writeDT b).advance
  | ldST {x : Nibble} {b : Byte} : ExecEffect s (.ldST x) (s.writeST b).advance
  | cls {fb : FrameBuffer} : ExecEffect s .cls (s.writeFB fb).advance
  | drw {x y n : Nibble} {fb : FrameBuffer} {c : Bool} :
      ExecEffect s (.drw x y n) ((s.writeFB fb).writeFlag c).advance
  | ldI {nnn : Addr12} {w : Word} : ExecEffect s (.ldI nnn) (s.writeIndex w).advance
  | addI {x : Nibble} {w : Word} {c : Bool} : ExecEffect s (.addI x) ((s.writeIndex w).writeFlag c).advance
  | ldF {x : Nibble} {w : Word} : ExecEffect s (.ldF x) (s.writeIndex w).advance
  | ldB {x : Nibble} {a : Nat} {bs : List Byte} : ExecEffect s (.ldB x) (s.writeMem a bs).advance
  | storeRegs {x : Nibble} {a : Nat} {bs : List Byte} {w : Word} :
      ExecEffect s (.storeRegs x) ((s.writeMem a bs).writeIndex w).advance
  | loadRegs {x : Nibble} {a : Nat} {w : Word} :
      ExecEffect s (.loadRegs x) ((s.writeRegs (s.regsLoaded x a)).writeIndex w).advance

/-- An effect behind a check that faults. -/
theorem ExecEffect.guarded {s u : State} {i : Instr} {p : Prop} [Decidable p] {k : FaultKind}
    (hu : ExecEffect s i u) : ExecEffect s i (if p then s.raiseFault k else u) := by
  split
  · exact .fault k
  · exact hu

/-- Every instruction has its effect. -/
theorem exec_effect {i : Instr} {s t : State} (h : exec i s = .next t) : ExecEffect s i t := by
  cases i with
  | jp | seImm | sneImm | seReg | sneReg | jpV0 | invalid => cases h; exact .jump rfl
  | skp | sknp => cases h; exact .guarded (.jump rfl)
  | ret => cases h; exact .guarded .ret
  | call =>
    cases h
    split
    · next hsp => exact .call hsp
    · exact .fault _
  | ldImm | addImm | ldReg | orReg | andReg | xorReg | rnd | ldVxDT => cases h; exact .result rfl rfl
  | ldVxK =>
    cases h
    split
    · exact .wait
    · exact .result rfl rfl
  | addReg | subReg | shr | subn | shl => cases h; exact .flagged rfl
  | ldDT => cases h; exact .ldDT
  | ldST => cases h; exact .ldST
  | cls => cases h; exact .cls
  | drw => cases h; exact .guarded .drw
  | ldI => cases h; exact .ldI
  | addI => cases h; exact .guarded .addI
  | ldF => cases h; exact .ldF
  | ldB => cases h; exact .guarded .ldB
  | storeRegs => cases h; exact .guarded .storeRegs
  | loadRegs => cases h; exact .guarded .loadRegs

/-- A step that answers a next state has the effect of the instruction at pc and then the phases after it, or,
not executing, leaves V, I, the stack and the framebuffer alone (R53, R108). -/
theorem step_effect {s t : State} (h : step s = .next t) :
    (s.canExecute ∧ ∃ u, ExecEffect s s.current u ∧ t = (u.afterExecute s.current).closeTick) ∨
    (¬ s.canExecute ∧ t.v = s.v ∧ t.index = s.index ∧ t.stack = s.stack ∧ t.sp = s.sp ∧ t.fb = s.fb) := by
  rcases step_executes_or_rests s t h with ⟨hx, u, hu, ht⟩ | ⟨hx, ht⟩
  · exact .inl ⟨hx, u, exec_effect hu, ht⟩
  · exact .inr ⟨hx, by rw [ht]; exact ⟨rfl, rfl, rfl, rfl, rfl⟩⟩

/-! ### What phases 4 to 6 and the end of the tick leave alone -/

section
variable (u : State) (i : Instr)

@[simp] theorem State.closeTick_afterExecute_index : (u.afterExecute i).closeTick.index = u.index := by
  rw [State.afterExecute_frame]
@[simp] theorem State.closeTick_afterExecute_stack : (u.afterExecute i).closeTick.stack = u.stack := by
  rw [State.afterExecute_frame]
@[simp] theorem State.closeTick_afterExecute_sp : (u.afterExecute i).closeTick.sp = u.sp := by
  rw [State.afterExecute_frame]
@[simp] theorem State.closeTick_afterExecute_fb : (u.afterExecute i).closeTick.fb = u.fb := by
  rw [State.afterExecute_frame]
@[simp] theorem State.closeTick_afterExecute_faulted : (u.afterExecute i).closeTick.faulted = u.faulted := by
  rw [State.afterExecute_frame]
@[simp] theorem State.closeTick_afterExecute_reg (x : Nibble) : (u.afterExecute i).closeTick.reg x = u.reg x := by
  rw [State.afterExecute_frame]; rfl

end

end Sys2Proof.Machine
end

section
/-! Which instructions write the stack, the framebuffer and I (10_state.md R25, R27, R32). -/

namespace Sys2Proof.Machine

variable {s t : State} {i : Instr}

theorem ExecEffect.stack_kept_or (h : ExecEffect s i t) :
    (t.sp = s.sp ∧ t.stack = s.stack) ∨ i = .ret ∨ ∃ nnn, i = .call nnn := by
  cases h with
  | ret => exact .inr (.inl rfl)
  | call => exact .inr (.inr ⟨_, rfl⟩)
  | _ => exact .inl ⟨rfl, rfl⟩

theorem ExecEffect.fb_kept_or (h : ExecEffect s i t) :
    t.fb = s.fb ∨ i = .cls ∨ ∃ x y n, i = .drw x y n := by
  cases h with
  | cls => exact .inr (.inl rfl)
  | drw => exact .inr (.inr ⟨_, _, _, rfl⟩)
  | _ => exact .inl rfl

theorem ExecEffect.index_kept_or (h : ExecEffect s i t) :
    t.index = s.index ∨ (∃ nnn, i = .ldI nnn) ∨ (∃ x, i = .addI x) ∨ (∃ x, i = .ldF x) ∨
      (∃ x, i = .storeRegs x) ∨ ∃ x, i = .loadRegs x := by
  cases h with
  | ldI => exact .inr (.inl ⟨_, rfl⟩)
  | addI => exact .inr (.inr (.inl ⟨_, rfl⟩))
  | ldF => exact .inr (.inr (.inr (.inl ⟨_, rfl⟩)))
  | storeRegs => exact .inr (.inr (.inr (.inr (.inl ⟨_, rfl⟩))))
  | loadRegs => exact .inr (.inr (.inr (.inr (.inr ⟨_, rfl⟩))))
  | _ => exact .inl rfl

/-- Settles O48: of the effects of an instruction only the pop of 00EE and the push of 2NNN touch SP or an entry,
and the rest of the tick touches neither. -/
theorem onlyCallAndReturnWriteStack : Obligations.OnlyCallAndReturnWriteStack := by
  unfold Obligations.OnlyCallAndReturnWriteStack
  intro s t h hne
  rcases step_effect h with ⟨hx, u, hu, rfl⟩ | ⟨_, _, _, hstack, hsp, _⟩
  · simp only [State.closeTick_afterExecute_sp, State.closeTick_afterExecute_stack] at hne
    exact ⟨hx, hu.stack_kept_or.resolve_left fun ⟨hsp, hstack⟩ => hne.elim (· hsp) (· hstack)⟩
  · exact (hne.elim (· hsp) (· hstack)).elim

/-- Settles O49: of the effects of an instruction only those of 00E0 and DXYN write the framebuffer. -/
theorem onlyClearAndDrawWritePixels : Obligations.OnlyClearAndDrawWritePixels := by
  unfold Obligations.OnlyClearAndDrawWritePixels
  intro s t h hne
  rcases step_effect h with ⟨hx, u, hu, rfl⟩ | ⟨_, _, _, _, _, hfb⟩
  · rw [State.closeTick_afterExecute_fb] at hne
    exact ⟨hx, hu.fb_kept_or.resolve_left hne⟩
  · exact absurd hfb hne

/-- Settles O51: of the effects of an instruction only those of the five instructions of R25 write I. -/
theorem onlyFiveInstructionsWriteIndex : Obligations.OnlyFiveInstructionsWriteIndex := by
  unfold Obligations.OnlyFiveInstructionsWriteIndex
  intro s t h hne
  rcases step_effect h with ⟨hx, u, hu, rfl⟩ | ⟨_, _, hindex, _⟩
  · rw [State.closeTick_afterExecute_index] at hne
    exact ⟨hx, hu.index_kept_or.resolve_left hne⟩
  · exact absurd hindex hne

end Sys2Proof.Machine
end

section
/-! VF: who changes it, and what a flag instruction leaves in it (10_state.md R21, decision D4). -/

namespace Sys2Proof.Machine

variable {s t : State} {i : Instr}

/-- FX65 leaves VF alone unless it loads up to VF (R176). -/
theorem State.regsLoaded_VF (s : State) {x : Nibble} (a : Nat) (hx : x ≠ 0xF) :
    (s.regsLoaded x a)[15] = s.reg 0xF := by
  have : ¬ 15 ≤ x.toNat := fun h => hx (BitVec.eq_of_toNat_eq (by have := x.isLt; simp; omega))
  simp [State.regsLoaded, State.reg, this]

theorem ExecEffect.VF_kept_or (h : ExecEffect s i t) :
    t.reg 0xF = s.reg 0xF ∨ writesFlag i = true ∨ destinationVF i = true := by
  cases h with
  | flagged hflag => exact .inr (.inl hflag)
  | drw | addI => exact .inr (.inl rfl)
  | @result _ x _ _ hdest =>
    by_cases hx : x = 0xF
    · exact .inr (.inr (by simp [hdest, hx]))
    · exact .inl ((s.aluResult_reg x _ _).trans (if_neg (Ne.symm hx)))
  | @loadRegs x a w =>
    by_cases hx : x = 0xF
    · exact .inr (.inr (by simp [destinationVF, hx]))
    · exact .inl (s.regsLoaded_VF a hx)
  | _ => exact .inl rfl

/-- The flag is the last write to VF (D4). -/
theorem State.writeFlag_VF (s : State) (c : Bool) : (s.writeFlag c).reg 0xF = 0 ∨ (s.writeFlag c).reg 0xF = 1 := by
  cases c <;> simp

theorem ExecEffect.VF_bit_of_writesFlag (h : ExecEffect s i t) (hnf : t.faulted = false)
    (hflag : writesFlag i = true) : t.reg 0xF = 0 ∨ t.reg 0xF = 1 := by
  cases h with
  | fault => exact absurd hnf (by simp)
  | flagged | drw | addI => exact State.writeFlag_VF _ _
  | jump hf | result hf => exact absurd hflag (by simp [hf])
  | _ => exact absurd hflag (by simp [writesFlag])

/-- Settles O52: the effects that write V[15] are the flagged ones, a result to X = 0xF and FX65 up to VF; a flagged
one ends with the flag unless it faults. -/
theorem flagWritersOfVF : Obligations.FlagWritersOfVF := by
  unfold Obligations.FlagWritersOfVF
  intro s t h
  rcases step_effect h with ⟨hx, u, hu, rfl⟩ | ⟨hx, hv, _⟩
  · simp only [State.closeTick_afterExecute_reg, State.closeTick_afterExecute_faulted]
    exact ⟨fun hne => ⟨hx, hu.VF_kept_or.resolve_left hne⟩, fun _ => hu.VF_bit_of_writesFlag⟩
  · exact ⟨fun hne => absurd (by simp [State.reg, hv]) hne, fun hx' => absurd hx' hx⟩

end Sys2Proof.Machine
end

section
/-! The registers at reset (10_state.md R22, R24, R26). -/

namespace Sys2Proof.Machine

@[simp] theorem State.reset_reg (x : Nibble) : State.reset.reg x = 0 := by
  simp [State.reg, State.reset]

/-- A reset constructs every register as State.reset has it (R250). -/
theorem hostReset_reg (s : State) (x : Nibble) : (hostReset s).reg x = State.reset.reg x := rfl

/-- Settles O5: the reset state holds these values, and a reset of any state takes pc, I and V from it. -/
theorem resetClearsRegisters : Obligations.ResetClearsRegisters := by
  unfold Obligations.ResetClearsRegisters
  intro s r hr
  obtain rfl | rfl : r = State.reset ∨ r = hostReset s := by simpa using hr
  · exact ⟨rfl, rfl, State.reset_reg⟩
  · exact ⟨rfl, rfl, fun x => (hostReset_reg s x).trans (State.reset_reg x)⟩

end Sys2Proof.Machine
end

section
/-! What the decoder answers is well-formed: the words of the table by their fields, and Invalid only for a word that
no row takes (30_encoding.md R72 to R76). -/

namespace Sys2Proof

/-- A row that fixes every bit takes its own word and no other (R72). -/
theorem accepts_maskAll (w op : Word) : Pattern.accepts ⟨0xFFFF, w⟩ op = true ↔ op = w := by
  have hmask : op &&& 0xFFFF#16 = op := BitVec.and_allOnes
  simp [Pattern.accepts, hmask]

/-- The rows of the table by the fields they fix (R72). -/
theorem patterns_by_fields :
    patterns = [⟨0xFFFF, 0x00E0⟩, ⟨0xFFFF, 0x00EE⟩] ++
      [0x1, 0x2, 0x3, 0x4].map (fun t => ⟨0xF000, wordNNN t 0⟩) ++ [⟨0xF00F, wordXYN 0x5 0 0 0⟩] ++
      [0x6, 0x7].map (fun t => ⟨0xF000, wordNNN t 0⟩) ++
      [0x0, 0x1, 0x2, 0x3, 0x4, 0x5, 0x6, 0x7, 0xE].map (fun n => ⟨0xF00F, wordXYN 0x8 0 0 n⟩) ++
      [⟨0xF00F, wordXYN 0x9 0 0 0⟩] ++ [0xA, 0xB, 0xC, 0xD].map (fun t => ⟨0xF000, wordNNN t 0⟩) ++
      [0x9E, 0xA1].map (fun nn => ⟨0xF0FF, wordXNN 0xE 0 nn⟩) ++
      [0x07, 0x0A, 0x15, 0x18, 0x1E, 0x29, 0x33, 0x55, 0x65].map (fun nn => ⟨0xF0FF, wordXNN 0xF 0 nn⟩) := rfl

/-- The words that some row takes, by their fields. -/
theorem isInstructionWord_iff (op : Word) :
    isInstructionWord op = true ↔
      (fieldT op = 0x0 ∧ (op = 0x00E0 ∨ op = 0x00EE)) ∨
      fieldT op ∈ [0x1, 0x2, 0x3, 0x4] ∨ (fieldT op = 0x5 ∧ fieldN op = 0) ∨ fieldT op ∈ [0x6, 0x7] ∨
      (fieldT op = 0x8 ∧ fieldN op ∈ [0x0, 0x1, 0x2, 0x3, 0x4, 0x5, 0x6, 0x7, 0xE]) ∨
      (fieldT op = 0x9 ∧ fieldN op = 0) ∨ fieldT op ∈ [0xA, 0xB, 0xC, 0xD] ∨
      (fieldT op = 0xE ∧ fieldNN op ∈ [0x9E, 0xA1]) ∨
      (fieldT op = 0xF ∧ fieldNN op ∈ [0x07, 0x0A, 0x15, 0x18, 0x1E, 0x29, 0x33, 0x55, 0x65]) := by
  have hT : op = 0x00E0 ∨ op = 0x00EE → fieldT op = 0x0 := by rintro (rfl | rfl) <;> rfl
  rw [and_iff_right_of_imp hT]
  simp only [isInstructionWord, patterns_by_fields, List.any_append, List.any_cons, List.any_nil, List.map_cons,
    List.map_nil, Bool.or_eq_true, Bool.or_false, accepts_maskAll, accepts_maskT, accepts_maskTN, accepts_maskTNN,
    List.mem_cons, List.not_mem_nil, or_false, or_assoc, and_or_left]

theorem wellFormed_ite {p : Prop} [Decidable p] {i j : Instr} :
    (if p then i else j).wellFormed = true ↔ (p → i.wellFormed = true) ∧ (¬ p → j.wellFormed = true) := by
  split <;> simp [*]

theorem wellFormed_invalid_iff (op : Word) :
    (Instr.invalid op).wellFormed = true ↔ ¬ isInstructionWord op = true := by
  simp [Instr.wellFormed]

/-! A sub-case that has tried every row of its class answers Invalid, and by then no row takes the word (R74, R76). -/

section
variable {op : Word}

theorem decode0_wellFormed (hT : fieldT op = 0x0) : (decode0 op).wellFormed = true := by
  simp only [decode0, wellFormed_ite, wellFormed_invalid_iff, isInstructionWord_iff, hT]
  simp +contextual [Instr.wellFormed]

theorem decode8_wellFormed (hT : fieldT op = 0x8) : (decode8 op).wellFormed = true := by
  simp only [decode8, wellFormed_ite, wellFormed_invalid_iff, isInstructionWord_iff, hT]
  simp +contextual [Instr.wellFormed]

theorem decodeE_wellFormed (hT : fieldT op = 0xE) : (decodeE op).wellFormed = true := by
  simp only [decodeE, wellFormed_ite, wellFormed_invalid_iff, isInstructionWord_iff, hT]
  simp +contextual [Instr.wellFormed]

theorem decodeF_wellFormed (hT : fieldT op = 0xF) : (decodeF op).wellFormed = true := by
  simp only [decodeF, wellFormed_ite, wellFormed_invalid_iff, isInstructionWord_iff, hT]
  simp +contextual [Instr.wellFormed]

theorem invalid_wellFormed_of_fieldN (hT : fieldT op = 0x5 ∨ fieldT op = 0x9) (hN : fieldN op ≠ 0) :
    (Instr.invalid op).wellFormed = true := by
  rw [wellFormed_invalid_iff, isInstructionWord_iff]
  rcases hT with hT | hT <;> simpa [hT] using hN

end

/-- What the decoder answers for any word is well-formed. -/
theorem decodeWord_wellFormed (op : Word) : (decodeWord op).wellFormed = true := by
  rcases decodeWord_cases op with ⟨hT, h⟩ | ⟨hT, h⟩ | ⟨hT, h⟩ | ⟨hT, h⟩ | ⟨hT, h⟩ | ⟨hT, h⟩ | ⟨hT, h⟩ | ⟨hT, h⟩ |
    ⟨hT, h⟩ | ⟨hT, h⟩ | ⟨hT, h⟩ | ⟨hT, h⟩ | ⟨hT, h⟩ | ⟨hT, h⟩ | ⟨hT, h⟩ | ⟨hT, h⟩ <;> rw [h]
  · exact decode0_wellFormed hT
  iterate 4 rfl
  · exact wellFormed_ite.2 ⟨fun _ => rfl, invalid_wellFormed_of_fieldN (.inl hT)⟩
  iterate 2 rfl
  · exact decode8_wellFormed hT
  · exact wellFormed_ite.2 ⟨fun _ => rfl, invalid_wellFormed_of_fieldN (.inr hT)⟩
  iterate 4 rfl
  · exact decodeE_wellFormed hT
  · exact decodeF_wellFormed hT

end Sys2Proof
end

section
/-! Which instructions write the memory, and how the memory stays canonical (20_memory.md R50, R57). -/

namespace Sys2Proof.Machine

variable {s t : State} {i : Instr}

theorem ExecEffect.mem_kept_or (h : ExecEffect s i t) :
    t.mem = s.mem ∨ (∃ x, i = .ldB x) ∨ ∃ x, i = .storeRegs x := by
  cases h with
  | ldB => exact .inr (.inl ⟨_, rfl⟩)
  | storeRegs => exact .inr (.inr ⟨_, rfl⟩)
  | loadRegs => exact .inl (by simp)
  | _ => exact .inl rfl

@[simp] theorem State.closeTick_afterExecute_mem (u : State) (i : Instr) :
    (u.afterExecute i).closeTick.mem = u.mem := by
  rw [State.afterExecute_frame]

/-- Settles O50: of the effects of an instruction only those of FX33 and FX55 write the memory, and a tick that
executes no instruction writes none. -/
theorem onlyBcdAndDumpWriteMemory : Obligations.OnlyBcdAndDumpWriteMemory := by
  unfold Obligations.OnlyBcdAndDumpWriteMemory
  intro s t h hne
  rcases step_executes_or_rests s t h with ⟨hx, u, hu, rfl⟩ | ⟨_, ht⟩
  · rw [State.closeTick_afterExecute_mem] at hne
    exact ⟨hx, (exec_effect hu).mem_kept_or.resolve_left hne⟩
  · exact absurd (by rw [ht]) hne

/-- Bytes written inside the store keep the memory canonical. -/
theorem State.writeMem_wf {a : Nat} {bs : List Byte} (hm : s.mem.wf = true) (ha : a + bs.length ≤ 4096) :
    (s.writeMem a bs).mem.wf = true :=
  Memory.wf_writeBytes s.mem a bs hm ha

/-- Bytes written at I to I + k behind the check that I + k lies in the store keep the memory canonical (R57). -/
theorem State.guardedWrite_wf {u : State} {k : Nat} {bs : List Byte} (hm : s.mem.wf = true)
    (hlen : bs.length = k + 1) (hu : u.mem = (s.writeMem (s.effAddr 0) bs).mem) :
    (if s.pastStore k then s.raiseFault .memRange else u).mem.wf = true := by
  split
  · exact hm
  · next hin =>
    rw [State.pastStore_iff] at hin
    rw [hu]
    exact State.writeMem_wf hm (by simp only [State.effAddr, hlen]; omega)

/-- The execute phase keeps the memory canonical: the two instructions that write it check their range first. -/
theorem exec_mem_wf (h : exec i s = .next t) (hm : s.mem.wf = true) : t.mem.wf = true := by
  rcases (exec_effect h).mem_kept_or with hkept | ⟨x, rfl⟩ | ⟨x, rfl⟩
  · rwa [hkept]
  · cases h
    exact State.guardedWrite_wf (bs := bcdDigits (s.reg x)) hm rfl rfl
  · cases h
    exact State.guardedWrite_wf hm (s.regsUpTo_length x) rfl

end Sys2Proof.Machine
end

section
/-! Where an instruction sends pc, and what it leaves in the stack (40_execution_cycle.md R106). -/

namespace Sys2Proof.Machine

variable {s t : State} {i : Instr}

/-- The values pc can have after an execute phase that found it in s. -/
inductive PcTarget (s : State) : Word → Prop where
  /-- A fault, or the key poll with no key pressed. -/
  | stay : PcTarget s s.pc
  | next : PcTarget s (s.pc + 2)
  | skip : PcTarget s (s.pc + 4)
  | ret : PcTarget s s.stackTop
  /-- A jump's target, below 0x1000. -/
  | jump {a : Word} (ha : a.toNat ≤ 0xFFF) : PcTarget s a

/-- A target behind a check that faults. -/
theorem PcTarget.guarded {u : State} {p : Prop} [Decidable p] {k : FaultKind} (hu : PcTarget s u.pc) :
    PcTarget s (if p then s.raiseFault k else u).pc := by
  split
  · exact .stay
  · exact hu

theorem PcTarget.advance {u : State} (hu : u.pc = s.pc) : PcTarget s u.advance.pc := by
  rw [State.advance_pc, hu]
  exact .next

theorem PcTarget.skipIf (c : Bool) : PcTarget s (s.skipIf c).pc := by
  cases c
  · exact .next
  · exact .skip

theorem PcTarget.addrWord (nnn : Addr12) : PcTarget s (addrWord nnn) := by
  refine .jump ?_
  have := nnn.isLt
  simp [Machine.addrWord]
  omega

/-- Every instruction sends pc to one of its targets. -/
theorem exec_pcTarget (h : exec i s = .next t) : PcTarget s t.pc := by
  cases i with
  | jp nnn => cases h; exact .addrWord nnn
  | call nnn =>
    cases h
    split
    · exact .addrWord nnn
    · exact .stay
  | jpV0 => cases h; exact .jump (by simp; omega)
  | ret => cases h; exact .guarded .ret
  | seImm | sneImm | seReg | sneReg => cases h; exact .skipIf _
  | skp | sknp => cases h; exact .guarded (.skipIf _)
  | ldVxK =>
    cases h
    split
    · exact .stay
    · exact .next
  | drw | addI | ldB | storeRegs | loadRegs => cases h; exact .guarded (.advance (by simp))
  | _ => cases h; exact .next

/-- An entry of the stack is as before, or the return address of a call. -/
theorem ExecEffect.stack_entry (h : ExecEffect s i t) (k : Fin 64) :
    t.stack[k] = s.stack[k] ∨ t.stack[k] = s.pc + 2 := by
  cases h with
  | call hsp =>
    by_cases hk : s.sp.val = k.val
    · exact .inr (by simp [hk])
    · exact .inl (by simp [Vector.getElem_set_ne, hk])
  | loadRegs => exact .inl (by simp)
  | _ => exact .inl rfl

theorem PcTarget.bounded {a : Word} (h : PcTarget s a) (hs : s.PcBounded) (hp : s.pc.toNat + 1 ≤ 0xFFF) :
    a.toNat ≤ 0x1002 := by
  obtain ⟨hpc, hstack⟩ := hs
  cases h with
  | stay => exact hpc
  | next | skip => rw [BitVec.toNat_add]; simp; omega
  | ret =>
    have htop : s.stackTop.toNat ≤ 0x1000 := hstack ⟨s.sp.val - 1, by omega⟩
    omega
  | jump ha => omega

/-- The execute phase keeps pc and the stack entries in their bounds when it runs an instruction that lies in the
store, since then neither p + 2 nor p + 4 wraps (R106). -/
theorem exec_pcBounded (h : exec i s = .next t) (hs : s.PcBounded) (hp : s.pc.toNat + 1 ≤ 0xFFF) :
    t.PcBounded := by
  refine ⟨(exec_pcTarget h).bounded hs hp, fun k => ?_⟩
  rcases (exec_effect h).stack_entry k with hk | hk <;> rw [hk]
  · exact hs.2 k
  · rw [BitVec.toNat_add]; simp; omega

end Sys2Proof.Machine
end

section
/-! The invariant of the block through a tick and through the host's moves (R39, R50, R76, R106, R108). -/

namespace Sys2Proof.Machine

variable {s t u : State} {i : Instr}

/-- The end of a tick writes nothing that the invariant speaks of. -/
theorem State.closeTick_inv_iff : s.closeTick.Inv ↔ s.Inv := Iff.rfl

/-- A fault keeps the invariant: it writes a code of R231 and clears the outputs (R232). -/
theorem State.Inv.raiseFault (hs : s.Inv) (k : FaultKind) : (s.raiseFault k).Inv := by
  obtain ⟨hmem, _, _, hpc⟩ := hs
  obtain ⟨hlo, hhi⟩ := k.code_range
  exact ⟨hmem, ⟨by simp, fun _ => ⟨hlo, hhi, rfl, rfl, rfl, rfl⟩⟩, by simp [State.ReportCoherent], hpc⟩

theorem State.Inv.clearOutputs (hs : s.Inv) : s.clearOutputs.Inv := by
  obtain ⟨hmem, ⟨hnf, hf⟩, _, hpc⟩ := hs
  refine ⟨hmem, ⟨hnf, fun hfault => ?_⟩, by simp [State.ReportCoherent], hpc⟩
  obtain ⟨hlo, hhi, _⟩ := hf hfault
  exact ⟨hlo, hhi, rfl, rfl, rfl, rfl⟩

/-- An execute phase raises a fault or leaves FAULTED and FAULT_CODE alone. -/
theorem ExecEffect.fault_or_kept (h : ExecEffect s i t) :
    (∃ k, t = s.raiseFault k) ∨ (t.faulted = s.faulted ∧ t.faultCode = s.faultCode) := by
  cases h with
  | fault k => exact .inl ⟨k, rfl⟩
  | loadRegs => exact .inr (by simp)
  | _ => exact .inr ⟨rfl, rfl⟩

/-- The outputs a tick that ran the instruction reports are coherent: an Invalid is reported with its own word,
which no row takes, and draws nothing (R76, R103, R107). -/
theorem State.setOutputs_reportCoherent (u : State) (hi : i.wellFormed = true) :
    (u.setOutputs i).ReportCoherent := by
  cases i with
  | invalid op =>
    have hop : isInstructionWord op = false := by simpa [Instr.wellFormed] using hi
    exact ⟨nofun, fun _ => ⟨hop, rfl⟩⟩
  | _ => exact ⟨fun _ => rfl, nofun⟩

/-- Running a well-formed instruction that lies in the store keeps the invariant. -/
theorem exec_inv (h : exec i s = .next u) (hs : s.Inv) (hi : i.wellFormed = true) (hnf : s.faulted = false)
    (hp : s.pc.toNat + 1 ≤ 0xFFF) : (u.afterExecute i).Inv := by
  rcases (exec_effect h).fault_or_kept with ⟨k, rfl⟩ | ⟨hf, hcode⟩
  · exact hs.raiseFault k
  · obtain ⟨hmem, ⟨hcode0, _⟩, _, hpc⟩ := hs
    have huf : u.faulted = false := hf.trans hnf
    have huc : u.faultCode = 0 := hcode.trans (hcode0 hnf)
    have humem : u.mem.wf = true := exec_mem_wf h hmem
    have hupc : u.PcBounded := exec_pcBounded h hpc hp
    rw [State.afterExecute, if_neg (by simp [huf])]
    exact ⟨humem, ⟨fun _ => huc, fun hf' => absurd hf' (by simp [huf])⟩,
      State.setOutputs_reportCoherent _ hi, hupc⟩

/-- Settles O55, by the cases of a step: a tick of a faulted block, a fetch fault, and an instruction run. -/
theorem stepKeepsInvariant : Obligations.StepKeepsInvariant := by
  unfold Obligations.StepKeepsInvariant
  intro s t hs h
  rcases step_cases s with ⟨_, h1⟩ | ⟨_, _, h1⟩ | ⟨_, _, _, h1⟩ | ⟨_, hnf, hp, h1⟩ <;> rw [h1] at h
  · cases h
  · cases h
    exact State.closeTick_inv_iff.2 hs.clearOutputs
  · cases h
    exact State.closeTick_inv_iff.2 (hs.raiseFault _)
  · obtain ⟨u, hu⟩ := exec_next s.current s
    cases h.symm.trans (runInstr_of_exec s.current s u hu)
    exact State.closeTick_inv_iff.2 (exec_inv hu hs (decodeWord_wellFormed _) hnf hp)

/-! ### What the host does between ticks (R56, R250) -/

/-- A load that is accepted: the image at 0x200 and up, and the boot phase (R56). -/
theorem hostLoad_accepted {image : List Byte} (hb : s.boot = .awaitingLoad) (hlen : image.length ≤ 3584) :
    hostLoad image s = { s.writeMem 0x200 image with boot := .loaded } := by
  rw [hostLoad, if_pos hb, if_pos hlen]

/-- A load of more than 3584 bytes is refused (R56, D27). -/
theorem hostLoad_oversize {image : List Byte} (hb : s.boot = .awaitingLoad) (hlen : 3584 < image.length) :
    hostLoad image s = { s with boot := .loadRefused } := by
  rw [hostLoad, if_pos hb, if_neg (by omega)]

/-- A load at another time than between reset and the first tick changes nothing (log 8). -/
theorem hostLoad_not_awaited (image : List Byte) (hb : s.boot ≠ .awaitingLoad) : hostLoad image s = s :=
  if_neg hb

theorem hostLoad_inv (image : List Byte) (hs : s.Inv) : (hostLoad image s).Inv := by
  obtain ⟨hmem, hrest⟩ := hs
  by_cases hb : s.boot = .awaitingLoad
  · rcases Nat.lt_or_ge 3584 image.length with hlen | hlen
    · rw [hostLoad_oversize hb hlen]
      exact ⟨hmem, hrest⟩
    · rw [hostLoad_accepted hb hlen]
      exact ⟨State.writeMem_wf hmem (by omega), hrest⟩
  · rw [hostLoad_not_awaited image hb]
    exact ⟨hmem, hrest⟩

/-- Every field of a reset block but the memory is that of State.reset, and the 80 bytes of FONT lie in the store. -/
theorem hostReset_inv (s : State) : (hostReset s).Inv := by
  have hreset : State.reset.Inv := by decide
  exact ⟨Memory.wf_writeBytes [] 0 s.params.font.toList rfl (by simp), hreset.2⟩

/-- Settles O56: a load writes bytes inside the store, the boot phase or nothing, and a reset has the invariant whatever
the state before it. -/
theorem hostMovesKeepInvariant : Obligations.HostMovesKeepInvariant := by
  unfold Obligations.HostMovesKeepInvariant
  exact fun image s hs => ⟨hostLoad_inv image hs, hostReset_inv s⟩

end Sys2Proof.Machine
end

section
/-! The program load (20_memory.md R56). -/

namespace Sys2Proof.Machine

/-- Settles O7: an accepted load is a write of the image at 0x200 and the boot phase, and after it no load is
awaited. -/
theorem loadWritesTheImage : Obligations.LoadWritesTheImage := by
  unfold Obligations.LoadWritesTheImage
  intro image other s hb hlen
  refine ⟨_, hostLoad_accepted hb hlen, fun k hk => ?_, fun a ha => ?_, rfl, hostLoad_not_awaited other nofun⟩
  · exact (s.writeMem_byteAt 0x200 image _).trans (by simp [hk])
  · exact (s.writeMem_byteAt 0x200 image a).trans (dif_neg (by omega))

/-- A block that has not refused a load takes a tick. -/
theorem step_next_of_started {s : State} (hb : s.boot ≠ .loadRefused) : ∃ t, step s = .next t := by
  rcases step_cases s with ⟨hb', _⟩ | ⟨_, _, h⟩ | ⟨_, _, _, h⟩ | ⟨_, _, _, h⟩
  · exact absurd hb' hb
  · exact ⟨_, h⟩
  · exact ⟨_, h⟩
  · obtain ⟨u, hu⟩ := exec_next s.current s
    exact ⟨_, h.trans (runInstr_of_exec s.current s u hu)⟩

theorem step_loadRefused {s : State} (hb : s.boot = .loadRefused) : step s = .fault .startupAborted :=
  if_pos hb

/-- Settles O8: an oversize load writes the boot phase alone, to the one phase in which no tick is admitted; a reset
leaves the block in another. -/
theorem oversizeLoadAdmitsNoTick : Obligations.OversizeLoadAdmitsNoTick := by
  unfold Obligations.OversizeLoadAdmitsNoTick
  intro image s hb hlen
  rw [hostLoad_oversize hb hlen]
  exact ⟨step_loadRefused rfl, rfl, step_next_of_started nofun⟩

end Sys2Proof.Machine
end

section
/-! The fetch (20_memory.md R52, R53, R64). -/

namespace Sys2Proof.Machine

theorem State.fetchBytes_inStore {s : State} (hp : s.pc.toNat + 1 ≤ 0xFFF) :
    s.fetchBytes = some [s.byteAt s.pc.toNat, s.byteAt (s.pc.toNat + 1)] :=
  if_neg (by omega)

/-- Settles O9: the word is that of the two bytes at pc, high byte first. -/
theorem fetchIsBigEndian : Obligations.FetchIsBigEndian := by
  unfold Obligations.FetchIsBigEndian
  intro s hp
  exact ⟨_, wordOfBytes_toNat _ _, by rw [State.fetchBytes_inStore hp]; rfl⟩

/-- Settles O17: of the cases of a step only the fetch fault has pc at 0xFFF or above in a safe state. -/
theorem fetchPastStoreFaults : Obligations.FetchPastStoreFaults := by
  unfold Obligations.FetchPastStoreFaults
  rintro s ⟨hnf, hb⟩ hpc
  rcases step_cases s with ⟨hb', _⟩ | ⟨_, hf, _⟩ | ⟨_, _, _, h⟩ | ⟨_, _, hp, _⟩
  · exact absurd hb' hb
  · exact absurd hf (by simp [hnf])
  · exact ⟨_, h, rfl⟩
  · omega

/-- The byte FX55 stores in place k is register k (R175). -/
theorem State.regsUpTo_getElem (s : State) (x k : Nibble) (hk : k.toNat < (s.regsUpTo x).length) :
    (s.regsUpTo x)[k.toNat] = s.reg k := by
  simp [State.regsUpTo, State.reg]

/-- FX55 inside the store leaves register k at I + k, for k up to X, and pc at the next word (R175). -/
theorem exec_storeRegs_inStore {x : Nibble} {s : State} (hin : s.index.toNat + x.toNat ≤ 0xFFF) :
    ∃ t, exec (.storeRegs x) s = .next t ∧ t.pc = s.pc + 2 ∧
      ∀ k : Nibble, k.toNat ≤ x.toNat → t.byteAt (s.index.toNat + k.toNat) = s.reg k := by
  refine ⟨_, congrArg Host.Outcome.next (if_neg (by rw [State.pastStore_iff]; omega)), rfl, fun k hk => ?_⟩
  have hlen : k.toNat < (s.regsUpTo x).length := by rw [State.regsUpTo_length]; omega
  simp [State.effAddr, hlen, State.regsUpTo_getElem]

/-- Settles O41: with I at the next word the dump leaves V0 and V1 in the bytes that the next fetch reads. -/
theorem storeIsSeenByNextFetch : Obligations.StoreIsSeenByNextFetch := by
  unfold Obligations.StoreIsSeenByNextFetch
  intro x s hx hin hI
  obtain ⟨t, ht, hpc, hbytes⟩ := exec_storeRegs_inStore hin
  have htpc : t.pc.toNat = s.index.toNat := by rw [hpc, BitVec.toNat_add]; simp; omega
  have h0 : t.byteAt s.index.toNat = s.reg 0 := hbytes 0 (Nat.zero_le _)
  have h1 : t.byteAt (s.index.toNat + 1) = s.reg 1 := hbytes 1 hx
  exact ⟨t, ht, by rw [State.fetchBytes_inStore (by omega), htpc, h0, h1]⟩

end Sys2Proof.Machine
end

section
/-! Every instruction's word is taken by the row the instruction belongs to: the statements made per instruction,
together (30_encoding.md R72). -/

namespace Sys2Proof.Laws.EncodesToItsRow

open Sys2Proof

theorem of_instr : ∀ i : Instr, Statement i
  | .cls => cls | .ret => ret | .jp a => jp a | .call a => call a
  | .seImm x b => seImm x b | .sneImm x b => sneImm x b | .seReg x y => seReg x y
  | .ldImm x b => ldImm x b | .addImm x b => addImm x b
  | .ldReg x y => ldReg x y | .orReg x y => orReg x y | .andReg x y => andReg x y | .xorReg x y => xorReg x y
  | .addReg x y => addReg x y | .subReg x y => subReg x y | .shr x y => shr x y | .subn x y => subn x y
  | .shl x y => shl x y | .sneReg x y => sneReg x y
  | .ldI a => ldI a | .jpV0 a => jpV0 a | .rnd x b => rnd x b | .drw x y n => drw x y n
  | .skp x => skp x | .sknp x => sknp x | .ldVxDT x => ldVxDT x | .ldVxK x => ldVxK x
  | .ldDT x => ldDT x | .ldST x => ldST x | .addI x => addI x | .ldF x => ldF x | .ldB x => ldB x
  | .storeRegs x => storeRegs x | .loadRegs x => loadRegs x | .invalid op => invalid op

end Sys2Proof.Laws.EncodesToItsRow
end

section
/-! The decoder, its table and the encoder agree: decode and encode are inverse, and the Invalid words are those that
no row takes (30_encoding.md R71 to R77). -/

namespace Sys2Proof

/-! ### The encoding of what is decoded is the word -/

section
variable {op : Word}

theorem wordNNN_of_fieldT {t : Nibble} (hT : fieldT op = t) : wordNNN t (fieldNNN op) = op := by
  rw [← hT, wordNNN_fields]

theorem wordXNN_of_fieldT {t : Nibble} (hT : fieldT op = t) : wordXNN t (fieldX op) (fieldNN op) = op := by
  rw [← hT, wordXNN_fields]

theorem wordXYN_of_fieldT {t : Nibble} (hT : fieldT op = t) :
    wordXYN t (fieldX op) (fieldY op) (fieldN op) = op := by
  rw [← hT, wordXYN_fields]

/-- A row that fixes T and NN encodes the words that have both. -/
theorem wordXNN_of_fields {t : Nibble} {nn : Byte} (hT : fieldT op = t) (hNN : fieldNN op = nn) :
    wordXNN t (fieldX op) nn = op := by
  rw [← hNN, wordXNN_of_fieldT hT]

/-- A row that fixes T and N encodes the words that have both. -/
theorem wordXYN_of_fields {t n : Nibble} (hT : fieldT op = t) (hN : fieldN op = n) :
    wordXYN t (fieldX op) (fieldY op) n = op := by
  rw [← hN, wordXYN_of_fieldT hT]

theorem encodeWord_ite {p : Prop} [Decidable p] {i j : Instr} :
    encodeWord (if p then i else j) = op ↔ (p → encodeWord i = op) ∧ (¬ p → encodeWord j = op) := by
  split <;> simp [*]

/-! The sub-cases of a class (R73): each row has the fields it compared, and Invalid keeps the word. -/

theorem encodeWord_decode0 : encodeWord (decode0 op) = op := by
  simp only [decode0, encodeWord_ite]
  simp +contextual [encodeWord]

theorem encodeWord_decode8 (hT : fieldT op = 0x8) : encodeWord (decode8 op) = op := by
  simp only [decode8, encodeWord_ite]
  simp +contextual only [encodeWord, wordXYN_of_fields hT, implies_true, and_self]

theorem encodeWord_decodeE (hT : fieldT op = 0xE) : encodeWord (decodeE op) = op := by
  simp only [decodeE, encodeWord_ite]
  simp +contextual only [encodeWord, wordXNN_of_fields hT, implies_true, and_self]

theorem encodeWord_decodeF (hT : fieldT op = 0xF) : encodeWord (decodeF op) = op := by
  simp only [decodeF, encodeWord_ite]
  simp +contextual only [encodeWord, wordXNN_of_fields hT, implies_true, and_self]

end

/-- The encoding of the instruction that a word decodes to is the word. -/
theorem encodeWord_decodeWord (op : Word) : encodeWord (decodeWord op) = op := by
  rcases decodeWord_cases op with ⟨hT, h⟩ | ⟨hT, h⟩ | ⟨hT, h⟩ | ⟨hT, h⟩ | ⟨hT, h⟩ | ⟨hT, h⟩ | ⟨hT, h⟩ | ⟨hT, h⟩ |
    ⟨hT, h⟩ | ⟨hT, h⟩ | ⟨hT, h⟩ | ⟨hT, h⟩ | ⟨hT, h⟩ | ⟨hT, h⟩ | ⟨hT, h⟩ | ⟨hT, h⟩ <;> rw [h]
  · exact encodeWord_decode0
  iterate 2 exact wordNNN_of_fieldT hT
  iterate 2 exact wordXNN_of_fieldT hT
  · exact encodeWord_ite.2 ⟨wordXYN_of_fields hT, fun _ => rfl⟩
  iterate 2 exact wordXNN_of_fieldT hT
  · exact encodeWord_decode8 hT
  · exact encodeWord_ite.2 ⟨wordXYN_of_fields hT, fun _ => rfl⟩
  iterate 2 exact wordNNN_of_fieldT hT
  · exact wordXNN_of_fieldT hT
  · exact wordXYN_of_fieldT hT
  · exact encodeWord_decodeE hT
  · exact encodeWord_decodeF hT

/-! ### The row of an instruction -/

theorem Instr.pattern_mem {i : Instr} {p : Pattern} (h : i.pattern = some p) : p ∈ patterns := by
  cases i with
  | invalid => cases h
  | _ => cases h; decide

/-- Invalid alone has no row (R72). -/
theorem Instr.eq_invalid_of_pattern_none {i : Instr} (h : i.pattern = none) : i = .invalid (encodeWord i) := by
  cases i with
  | invalid => rfl
  | _ => cases h

/-- A word decodes to the instruction of a row that takes it, or to Invalid with the word itself: what is decoded
encodes to the word, and the row of an instruction takes the instruction's word. -/
theorem decodeWord_row (op : Word) :
    (∃ p ∈ patterns, (decodeWord op).pattern = some p ∧ p.accepts op = true) ∨
      ((decodeWord op).pattern = none ∧ decodeWord op = .invalid op) := by
  cases hrow : (decodeWord op).pattern with
  | some p =>
    have htakes := Laws.EncodesToItsRow.of_instr _ p hrow
    rw [encodeWord_decodeWord] at htakes
    exact .inl ⟨p, Instr.pattern_mem hrow, rfl, htakes⟩
  | none =>
    have hinv := Instr.eq_invalid_of_pattern_none hrow
    rw [encodeWord_decodeWord] at hinv
    exact .inr ⟨rfl, hinv⟩

/-- Two rows of the table whose values agree at every bit both fix are one row. -/
theorem patterns_disjoint :
    ∀ p ∈ patterns, ∀ q ∈ patterns, p.value &&& q.mask = q.value &&& p.mask → p = q := by
  decide

/-- No word is taken by two rows of the table (R75). -/
theorem pattern_unique {p q : Pattern} {op : Word} (hp : p ∈ patterns) (hq : q ∈ patterns)
    (hpa : p.accepts op = true) (hqa : q.accepts op = true) : p = q := by
  rw [Pattern.accepts, beq_iff_eq] at hpa hqa
  exact patterns_disjoint p hp q hq (by rw [← hpa, ← hqa]; ac_rfl)

/-! ### The words that no row takes -/

theorem isInstructionWord_eq_false_iff (op : Word) :
    isInstructionWord op = false ↔ ∀ q ∈ patterns, q.accepts op = false := by
  simp [isInstructionWord]

/-- A word decodes to Invalid exactly when no row of the table takes it (R76). -/
theorem decodeWord_eq_invalid_iff (op : Word) : decodeWord op = .invalid op ↔ isInstructionWord op = false := by
  constructor
  · intro hinv
    simpa [hinv, Instr.wellFormed] using decodeWord_wellFormed op
  · intro hno
    rcases decodeWord_row op with ⟨p, hp, _, htakes⟩ | ⟨_, hinv⟩
    · rw [(isInstructionWord_eq_false_iff op).1 hno p hp] at htakes
      cases htakes
    · exact hinv

/-! ### The instruction decoded from an encoding -/

/-- Decoding the word of a well-formed instruction gives it back: each class of R73 reads the fields that the
encoder wrote, and a well-formed Invalid holds a word that no row takes. -/
theorem decodeWord_encodeWord {i : Instr} (h : i.wellFormed = true) : decodeWord (encodeWord i) = i := by
  cases i with
  | cls | ret => rfl
  | jp | call | seImm | sneImm | seReg | ldImm | addImm | sneReg | ldI | jpV0 | rnd | drw =>
    simp [encodeWord, decodeWord]
  | ldReg | orReg | andReg | xorReg | addReg | subReg | shr | subn | shl =>
    simp [encodeWord, decodeWord_T8, decode8]
  | skp | sknp => simp [encodeWord, decodeWord_TE, decodeE]
  | ldVxDT | ldVxK | ldDT | ldST | addI | ldF | ldB | storeRegs | loadRegs =>
    simp [encodeWord, decodeWord_TF, decodeF]
  | invalid op =>
    rw [wellFormed_invalid_iff, Bool.not_eq_true] at h
    exact (decodeWord_eq_invalid_iff op).2 h

/-- The decoder reads the two bytes of an encoding as its word and leaves the bytes after them (R52). -/
theorem decode_encode_append (i : Instr) (rest : List Byte) :
    decode (encode i ++ rest) = .decoded (decodeWord (encodeWord i)) rest := by
  simp [encode, decode]

/-- Settles O2: the two bytes make the instruction's word again, and that word decodes to the instruction. -/
theorem decodeEncodeRoundTrip : Obligations.DecodeEncodeRoundTrip := by
  unfold Obligations.DecodeEncodeRoundTrip
  intro i rest h
  rw [decode_encode_append, decodeWord_encodeWord h]

/-- Settles O3: the word is its instruction's encoding, so that the instruction's row takes it; no other row does,
since two rows differ at a bit that both fix. -/
theorem decoderIsTheTable : Obligations.DecoderIsTheTable := by
  unfold Obligations.DecoderIsTheTable
  intro op
  refine ⟨encodeWord_decodeWord op, decodeWord_wellFormed op, ?_⟩
  rcases decodeWord_row op with ⟨p, hp, hrow, htakes⟩ | ⟨hrow, hinv⟩ <;> rw [hrow]
  · exact ⟨hp, htakes, fun q hq hqtakes => pattern_unique hq hp hqtakes htakes⟩
  · exact ⟨hinv, (isInstructionWord_eq_false_iff op).1 ((decodeWord_eq_invalid_iff op).1 hinv)⟩

/-- The low nibbles of the rows of class 8, as numbers (R73). -/
theorem mem_class8_nibbles_iff (n : Nibble) :
    n ∈ [0x0, 0x1, 0x2, 0x3, 0x4, 0x5, 0x6, 0x7, 0xE] ↔ n.toNat < 8 ∨ n.toNat = 0xE := by
  revert n; decide

/-- Settles O4: the Invalid words are those that no row takes, and for each top nibble the rows say which low nibbles
or low bytes those are. -/
theorem invalidSpaceByDigits : Obligations.InvalidSpaceByDigits := by
  unfold Obligations.InvalidSpaceByDigits
  intro op
  have hdigit : op.toNat / 0x1000 = (fieldT op).toNat := (fieldT_toNat op).symm
  rw [decodeWord_eq_invalid_iff, ← Bool.not_eq_true, isInstructionWord_iff, mem_class8_nibbles_iff,
    hdigit, ← fieldN_toNat, ← fieldNN_toNat]
  rcases nibble_cases (fieldT op) with hT | hT | hT | hT | hT | hT | hT | hT |
    hT | hT | hT | hT | hT | hT | hT | hT <;>
    simp [hT, BitVec.toNat_eq]

/-- Settles O1, by running the decoder on each word. -/
theorem decodeSampleWords : Obligations.DecodeSampleWords := by
  unfold Obligations.DecodeSampleWords
  decide

end Sys2Proof
end

section
/-! The execution cycle: what a step is when it executes an instruction, and what its phases 4 to 6 leave in the
outputs and the timers (40_execution_cycle.md R101 to R108). -/

namespace Sys2Proof.Machine

variable {s t u : State} {i : Instr}

/-! ### A step that executes an instruction, and a step of a faulted block -/

/-- A step that executes runs the instruction at pc (R101). -/
theorem step_of_canExecute (hx : s.canExecute) : step s = runInstr s.current s := by
  obtain ⟨hb, hnf, hp⟩ := hx
  rcases step_cases s with ⟨hb', _⟩ | ⟨_, hf, _⟩ | ⟨_, _, hp', _⟩ | ⟨_, _, _, h⟩
  · exact absurd hb' hb
  · exact absurd hf (by simp [hnf])
  · omega
  · exact h

/-- A fault in the execute phase abandons phases 4 to 6 (R232). -/
theorem State.afterExecute_raiseFault (s : State) (k : FaultKind) (i : Instr) :
    (s.raiseFault k).afterExecute i = s.raiseFault k := if_pos rfl

/-- Without a fault the execute phase is followed by the sound sample, the decrement and the outputs (R101). -/
theorem State.afterExecute_of_not_faulted (i : Instr) (hu : u.faulted = false) :
    u.afterExecute i = (u.sampleSound.decrementTimers).setOutputs i := if_neg (by simp [hu])

/-- A step whose execute phase ends in u without a fault is phases 4 to 6 on u and the end of the tick (R101). -/
theorem step_of_exec (hx : s.canExecute) (hu : exec s.current s = .next u) (hnf : u.faulted = false) :
    step s = .next ((u.sampleSound.decrementTimers).setOutputs s.current).closeTick := by
  rw [step_of_canExecute hx, runInstr_of_exec _ _ _ hu, State.afterExecute_of_not_faulted _ hnf]

theorem step_of_faulted (hb : s.boot ≠ .loadRefused) (hf : s.faulted = true) : step s = .next s.faultedTick :=
  (if_neg hb).trans (if_pos hf)

/-! ### The outputs should_draw and should_play_sound (R103, R104) -/

theorem drawsScreen_iff : drawsScreen i = true ↔ i = .cls ∨ ∃ x y n, i = .drw x y n := by
  cases i with
  | cls | drw => simp [drawsScreen]
  | _ => simp [drawsScreen]

/-- Settles O12: phase 6 sets should_draw by the instruction executed; a fault of the execute phase, a fetch fault and
a tick of a faulted block leave it 0. -/
theorem shouldDrawExactlyAfterDrawing : Obligations.ShouldDrawExactlyAfterDrawing := by
  unfold Obligations.ShouldDrawExactlyAfterDrawing
  intro s t h
  rcases step_executes_or_rests s t h with ⟨hx, u, hu, rfl⟩ | ⟨hx, ht⟩
  · rcases (exec_effect hu).fault_or_kept with ⟨k, rfl⟩ | ⟨hf, _⟩
    · simp [State.afterExecute_raiseFault]
    · have hnf : u.faulted = false := hf.trans hx.2.1
      rw [State.afterExecute_of_not_faulted _ hnf]
      exact drawsScreen_iff.trans ⟨fun hi => ⟨hx, hnf, hi⟩, fun ⟨_, _, hi⟩ => hi⟩
  · have hdraw : t.shouldDraw = false := by rw [ht]
    exact iff_of_false (by simp [hdraw]) fun ⟨hx', _⟩ => hx hx'

/-- Settles O13: phase 4 samples ST as the execute phase left it, and phase 5 counts a 1 down to 0. -/
theorem soundFlagSamplesBeforeDecrement : Obligations.SoundFlagSamplesBeforeDecrement := by
  unfold Obligations.SoundFlagSamplesBeforeDecrement
  intro s u t hx hu hnf h
  cases (step_of_exec hx hu hnf).symm.trans h
  refine ⟨by simp [BitVec.toNat_eq], fun hsound => ?_⟩
  have hst : u.st = 1 := by simpa using hsound
  simp [hst, countDown]

/-! ### The timers (R105) -/

theorem ExecEffect.dt_kept_or (h : ExecEffect s i t) : t.dt = s.dt ∨ ∃ x, i = .ldDT x := by
  cases h with
  | ldDT => exact .inr ⟨_, rfl⟩
  | loadRegs => exact .inl (by simp)
  | _ => exact .inl rfl

theorem ExecEffect.st_kept_or (h : ExecEffect s i t) : t.st = s.st ∨ ∃ x, i = .ldST x := by
  cases h with
  | ldST => exact .inr ⟨_, rfl⟩
  | loadRegs => exact .inl (by simp)
  | _ => exact .inl rfl

/-- Settles O14: phase 5 counts down what the execute phase left, which for DT is the value before unless the
instruction is FX15, and for ST unless it is FX18. -/
theorem timersCountDownEachTick : Obligations.TimersCountDownEachTick := by
  unfold Obligations.TimersCountDownEachTick
  intro s u t hx hu hnf h
  cases (step_of_exec hx hu hnf).symm.trans h
  refine ⟨countDown_toNat u.dt, countDown_toNat u.st, fun hne => ?_, fun hne => ?_⟩
  · have hdt : u.dt = s.dt := (exec_effect hu).dt_kept_or.resolve_right fun ⟨x, hi⟩ => hne x hi
    exact hdt ▸ countDown_toNat u.dt
  · have hst : u.st = s.st := (exec_effect hu).st_kept_or.resolve_right fun ⟨x, hi⟩ => hne x hi
    exact hst ▸ countDown_toNat u.st

/-! ### The instruction that a step runs (R101) -/

/-- Settles O10: what the bytes at pc decode to is the instruction at pc, which the decoder answers well-formed, and
the step runs it. -/
theorem stepRunsDecodedInstruction : Obligations.StepRunsDecodedInstruction := by
  unfold Obligations.StepRunsDecodedInstruction
  intro s i hx hdec
  obtain rfl : s.current = i := by
    rw [decode_bytes] at hdec
    exact (DecodeResult.decoded.inj hdec).1
  obtain ⟨u, hu⟩ := exec_next s.current s
  refine ⟨decodeWord_wellFormed _, rfl, ?_⟩
  rw [step_of_canExecute hx, runInstr_of_exec _ _ _ hu, hu]
  rfl

theorem decodeTableWord_16 (w : Nat) : decodeTableWord 16 w = some (decodeWord (tableWord 16 w)) := by
  simp [decodeTableWord, decode_bytes]

/-- Where the fetch finds its two bytes, placing a word is a write of its two bytes at pc (log 12). -/
theorem State.withFetchWord_inStore (hp : s.pc.toNat + 1 ≤ 0xFFF) (nbits w : Nat) :
    s.withFetchWord nbits w =
      s.writeMem s.pc.toNat [highByte (tableWord nbits w), lowByte (tableWord nbits w)] :=
  if_neg (by omega)

/-- The instruction at pc after the two bytes of a word are written there is the one the word decodes to. -/
theorem State.writeMem_current (s : State) (op : Word) :
    (s.writeMem s.pc.toNat [highByte op, lowByte op]).current = decodeWord op := by
  simp [State.current]

/-- Settles O11: a placed word is a write of its bytes at pc, and the step fetches those. -/
theorem placedWordIsExecuted : Obligations.PlacedWordIsExecuted := by
  unfold Obligations.PlacedWordIsExecuted
  intro s w hx _
  obtain ⟨hb, hnf, hp⟩ := hx
  have hcurrent := s.writeMem_current (tableWord 16 w)
  rw [State.withFetchWord_inStore hp]
  refine ⟨_, decodeTableWord_16 w, hcurrent, ?_, rfl, fun a ha ha' => ?_⟩
  · rw [← hcurrent]
    exact step_of_canExecute ⟨hb, hnf, hp⟩
  · rw [State.writeMem_byteAt, dif_neg (by simp; omega)]

/-! ### The Invalid word and the faulted block (R107, R108) -/

theorem encodeWord_current (s : State) :
    encodeWord s.current = wordOfBytes (s.byteAt s.pc.toNat) (s.byteAt (s.pc.toNat + 1)) :=
  encodeWord_decodeWord _

/-- Settles O15: the execute phase of an Invalid word advances pc; phases 4 to 6 then count the timers and report the
word, which is that of the bytes at pc. -/
theorem invalidWordIsReportedAndSkipped : Obligations.InvalidWordIsReportedAndSkipped := by
  unfold Obligations.InvalidWordIsReportedAndSkipped
  refine ⟨fun _ _ => rfl, fun op s hx hop => ?_⟩
  have hexec : exec s.current s = .next s.advance := by rw [hop]; rfl
  have hword := encodeWord_current s
  have hnf : s.faulted = false := hx.2.1
  have hstep := step_of_exec hx hexec hnf
  rw [hop] at hword hstep
  exact ⟨_, hstep, rfl, rfl, rfl, hnf, (congrArg BitVec.toNat hword).trans (wordOfBytes_toNat _ _),
    countDown_toNat s.dt, countDown_toNat s.st, rfl⟩

/-- A coherent faulted state has its outputs at 0 already (R108). -/
theorem State.clearOutputs_of_faultCoherent (hs : s.FaultCoherent) (hf : s.faulted = true) : s.clearOutputs = s := by
  obtain ⟨_, hcleared⟩ := hs
  cases s
  obtain ⟨_, _, rfl, rfl, rfl, rfl⟩ := hcleared hf
  rfl

/-- Settles O18: a tick of a faulted block clears the outputs, which changes nothing in a coherent state, and ends the
tick. -/
theorem faultedBlockDoesNothing : Obligations.FaultedBlockDoesNothing := by
  unfold Obligations.FaultedBlockDoesNothing
  intro s hb hf
  refine ⟨_, step_of_faulted hb hf, rfl, fun hs => ?_⟩
  rw [State.faultedTick, State.clearOutputs_of_faultCoherent hs hf]
  rfl

end Sys2Proof.Machine
end

section
/-! Control transfer: jumps, calls and returns, and skips, each with the fields it writes (41_control_flow.md R120 to
R127). -/

namespace Sys2Proof.Machine

variable {s : State}

/-! ### The stack (R27) -/

/-- The state a fault leaves, by its code (R232). -/
theorem State.raiseFault_eq_afterFault (s : State) (k : FaultKind) : s.raiseFault k = s.afterFault k.code := rfl

/-- A stack entry after a push: the word at STACK[SP], every other entry as before. -/
theorem State.push_entry (w : Word) (hsp : s.sp.val < 64) (k : Fin 64) :
    (s.push w hsp).stack[k] = if k.val = s.sp.val then w else s.stack[k] := by
  simp [Vector.getElem_set, eq_comm]

/-- The entry a pop takes when SP is one above k. -/
theorem State.stackTop_of_sp {k : Fin 64} (hk : s.sp.val = k.val + 1) : s.stackTop = s.stack[k] := by
  simp [State.stackTop, hk]

/-- What a pop takes after a push is the word pushed, wherever pc went in between. -/
@[simp] theorem State.goto_push_stackTop (w a : Word) (hsp : s.sp.val < 64) :
    ((s.push w hsp).goto a).stackTop = w := by
  simp [State.stackTop]

/-! ### Call and return -/

theorem exec_call (nnn : Addr12) (hsp : s.sp.val < 64) :
    exec (.call nnn) s = .next ((s.push (s.pc + 2) hsp).goto (addrWord nnn)) :=
  congrArg Host.Outcome.next (dif_pos hsp)

theorem exec_call_full (nnn : Addr12) (hsp : s.sp.val = 64) :
    exec (.call nnn) s = .next (s.raiseFault .stackOverflow) :=
  congrArg Host.Outcome.next (dif_neg (by omega))

theorem exec_ret (hsp : s.sp.val ≠ 0) : exec .ret s = .next (s.pop.goto s.stackTop) :=
  congrArg Host.Outcome.next (if_neg hsp)

theorem exec_ret_empty (hsp : s.sp.val = 0) : exec .ret s = .next (s.raiseFault .stackUnderflow) :=
  congrArg Host.Outcome.next (if_pos hsp)

@[simp] theorem addrWord_toNat (nnn : Addr12) : (addrWord nnn).toNat = nnn.toNat :=
  BitVec.toNat_setWidth_of_le (by decide)

/-- Settles O24: the return pops the word that the call pushed, p + 2, and takes SP back to where the call found it;
the entry at that SP is the only one the call wrote. -/
theorem callThenReturnComesBack : Obligations.CallThenReturnComesBack := by
  unfold Obligations.CallThenReturnComesBack
  intro nnn s hsp
  refine ⟨_, _, exec_call nnn hsp, exec_ret (Nat.succ_ne_zero _), fun k hk => ?_, ?_⟩
  · exact (State.push_entry _ hsp k).trans (if_neg hk)
  · rw [State.goto_push_stackTop]
    rfl

/-- Settles O22: below 64 entries the call is a push and a jump; at 64 it is the fault of code 3. -/
theorem callPushesReturnAddress : Obligations.CallPushesReturnAddress := by
  unfold Obligations.CallPushesReturnAddress
  intro nnn s
  refine ⟨fun hfull => ?_, fun hsp => ?_⟩
  · rw [exec_call_full nnn hfull, State.raiseFault_eq_afterFault, FaultKind.code]
  · exact ⟨_, exec_call nnn hsp, addrWord_toNat nnn, rfl, State.push_entry _ hsp, rfl⟩

/-- Settles O23: with an entry on the stack the return is a pop and a jump to it; with none it is the fault of
code 4. -/
theorem returnPopsIntoPc : Obligations.ReturnPopsIntoPc := by
  unfold Obligations.ReturnPopsIntoPc
  intro s
  refine ⟨fun hempty => ?_, fun k hk => ?_⟩
  · rw [exec_ret_empty hempty, State.raiseFault_eq_afterFault, FaultKind.code]
  · have hpop : s.pop.sp.val = k.val := by simp [hk]
    exact ⟨_, exec_ret (by omega), State.stackTop_of_sp hk, hpop, rfl⟩

/-! ### Jumps -/

/-- Settles O21: the target is NNN zero-extended. -/
theorem jumpSetsPc : Obligations.JumpSetsPc := by
  unfold Obligations.JumpSetsPc
  exact fun nnn _ => ⟨addrWord nnn, addrWord_toNat nnn, rfl⟩

/-- Settles O27: the reduced sum is below 0x1000, so that it fits the 16 bits of pc. -/
theorem jumpV0WrapsAtTwelveBits : Obligations.JumpV0WrapsAtTwelveBits := by
  unfold Obligations.JumpV0WrapsAtTwelveBits
  intro nnn s
  have hfits : ((s.reg 0).toNat + nnn.toNat) % 0x1000 < 2 ^ 16 := by omega
  exact ⟨_, (BitVec.toNat_ofNat _ 16).trans (Nat.mod_eq_of_lt hfits), rfl⟩

/-! ### Skips -/

/-- A skip on a test of p writes pc alone: past the next word where p holds, else to it (R13). -/
theorem State.skipIf_eq_ite (s : State) {c : Bool} {p : Prop} [Decidable p] (hc : c = true ↔ p) :
    s.skipIf c = { s with pc := if p then s.pc + 4 else s.pc + 2 } := by
  by_cases hp : p
  · rw [hc.2 hp, if_pos hp]
    rfl
  · rw [Bool.eq_false_iff.2 (mt hc.1 hp), if_neg hp]
    rfl

theorem byte_beq_iff (a b : Byte) : (a == b) = true ↔ a.toNat = b.toNat := by
  rw [beq_iff_eq, BitVec.toNat_eq]

theorem byte_bne_iff (a b : Byte) : (a != b) = true ↔ a.toNat ≠ b.toNat := by
  rw [bne_iff_ne, BitVec.toNat_ne_iff_ne]

/-- Settles O25: both are skips, on VX and NN equal and on the two unequal. -/
theorem skipsOnImmediate : Obligations.SkipsOnImmediate := by
  unfold Obligations.SkipsOnImmediate
  intro x nn s
  exact ⟨congrArg Host.Outcome.next (s.skipIf_eq_ite (byte_beq_iff _ _)),
    congrArg Host.Outcome.next (s.skipIf_eq_ite (byte_bne_iff _ _))⟩

/-- Settles O26: both are skips, on VX and VY equal and on the two unequal. -/
theorem skipsOnRegister : Obligations.SkipsOnRegister := by
  unfold Obligations.SkipsOnRegister
  intro x y s
  exact ⟨congrArg Host.Outcome.next (s.skipIf_eq_ite (byte_beq_iff _ _)),
    congrArg Host.Outcome.next (s.skipIf_eq_ite (byte_bne_iff _ _))⟩

end Sys2Proof.Machine
end

section
/-! The ALU: what an instruction leaves in VX and VF, from the two operations that write them (42_alu.md R140 to
R153). -/

namespace Sys2Proof.Machine

variable {s : State} {x : Nibble} {r : Byte}

/-! ### The flags, as conditions on the operands (R21) -/

theorem carryOut_iff (a b : Byte) : carryOut a b = true ↔ a.toNat + b.toNat > 255 := decide_eq_true_iff

theorem notBorrow_iff (a b : Byte) : notBorrow a b = true ↔ a.toNat ≥ b.toNat := decide_eq_true_iff

theorem shiftLeftFlag_iff (mask a : Byte) : shiftLeftFlag mask a = true ↔ a &&& mask ≠ 0 := decide_eq_true_iff

/-- A bit of a byte by its number. -/
theorem byte_getLsbD_iff (a : Byte) (j : Nat) : a.getLsbD j = true ↔ a.toNat / 2 ^ j % 2 = 1 := by
  rw [BitVec.getLsbD, Nat.testBit_eq_decide_div_mod_eq, decide_eq_true_iff]

theorem shiftedOutRight_iff (a : Byte) : shiftedOutRight a = true ↔ a.toNat % 2 = 1 := by
  rw [shiftedOutRight, byte_getLsbD_iff, pow_zero, Nat.div_one]

/-- A mask of one bit tests that bit. -/
theorem and_twoPow_ne_zero_iff (a : Byte) {j : Nat} (hj : j < 8) :
    a &&& BitVec.twoPow 8 j ≠ 0 ↔ a.getLsbD j = true := by
  have hbit : BitVec.twoPow 8 j ≠ 0 := fun h => by simpa [hj] using congrArg (·.getLsbD j) h
  rw [BitVec.and_twoPow]
  split
  · next h => exact iff_of_true hbit h
  · next h => exact iff_of_false (not_not_intro rfl) h

/-- The default SHL_FLAG_MASK tests bit 3 (R152, D5). -/
theorem and_defaultMask_ne_zero_iff (a : Byte) : a &&& 0x08 ≠ 0 ↔ a.toNat / 8 % 2 = 1 :=
  (and_twoPow_ne_zero_iff a (j := 3) (by decide)).trans (byte_getLsbD_iff a 3)

/-! ### The results, as numbers -/

theorem byte_sub_toNat (a b : Byte) : (a - b).toNat = (a.toNat + 256 - b.toNat) % 256 := by
  have hb : b.toNat < 256 := b.isLt
  rw [BitVec.toNat_sub]
  omega

theorem byte_shiftRight_one_toNat (a : Byte) : (a >>> 1).toNat = a.toNat / 2 := by
  rw [BitVec.toNat_ushiftRight, Nat.shiftRight_eq_div_pow, pow_one]

theorem byte_shiftLeft_one_toNat (a : Byte) : (a <<< 1).toNat = 2 * a.toNat % 256 := by
  rw [BitVec.toNat_shiftLeft, Nat.shiftLeft_eq, pow_one, Nat.mul_comm]

/-! ### Instructions with a flag (R141) -/

/-- VX and then VF: the flag is the last write, so that VF holds it for X = 0xF too (D4). -/
theorem State.aluFlagged_flaggedResult {n : Nat} {c : Bool} {p : Prop} (hr : r.toNat = n) (hc : c = true ↔ p) :
    FlaggedResult s (s.aluFlagged x r c) x n p := by
  refine ⟨fun hp => ?_, fun hp => ?_, fun hx => ?_, fun k hkx hkF => ?_, s.aluFlagged_frame x r c⟩
  · rw [State.aluFlagged_reg, if_pos rfl, if_pos (hc.2 hp)]
  · rw [State.aluFlagged_reg, if_pos rfl, if_neg (mt hc.1 hp)]
  · rw [State.aluFlagged_reg, if_neg hx, if_pos rfl, hr]
  · rw [State.aluFlagged_reg, if_neg hkF, if_neg hkx]

/-- Settles O31: the byte sum and differences are those mod 256, each flag the comparison of the exact operands. -/
theorem addAndSubtractSetFlag : Obligations.AddAndSubtractSetFlag := by
  unfold Obligations.AddAndSubtractSetFlag
  rintro x y s _ _ rfl rfl
  refine ⟨⟨_, rfl, ?_⟩, ⟨_, rfl, ?_⟩, ⟨_, rfl, ?_⟩⟩
  · exact State.aluFlagged_flaggedResult (BitVec.toNat_add _ _) (carryOut_iff _ _)
  · exact State.aluFlagged_flaggedResult (byte_sub_toNat _ _) (notBorrow_iff _ _)
  · exact State.aluFlagged_flaggedResult (byte_sub_toNat _ _) (notBorrow_iff _ _)

/-- 8XYE: VX doubled mod 256, with the flag that the mask picks of the value before the shift (R152). -/
theorem exec_shl_flaggedResult (x y : Nibble) (s : State) :
    ∃ t, exec (.shl x y) s = .next t ∧
      FlaggedResult s t x (2 * (s.reg x).toNat % 256) (s.reg x &&& s.params.shlFlagMask ≠ 0) :=
  ⟨_, rfl, State.aluFlagged_flaggedResult (byte_shiftLeft_one_toNat _) (shiftLeftFlag_iff _ _)⟩

/-- Settles O32: a shift halves or doubles, and its flag is a bit of the value before the shift, which the default mask
makes bit 3. -/
theorem shiftsSetFlag : Obligations.ShiftsSetFlag := by
  unfold Obligations.ShiftsSetFlag
  rintro x y s _ rfl
  refine ⟨⟨_, rfl, ?_⟩, exec_shl_flaggedResult x y s, fun hmask => ?_⟩
  · exact State.aluFlagged_flaggedResult (byte_shiftRight_one_toNat _) (shiftedOutRight_iff _)
  · rw [← and_defaultMask_ne_zero_iff, ← hmask]
    exact exec_shl_flaggedResult x y s

/-! ### Instructions without a flag -/

theorem State.aluResult_reg_same (s : State) (x : Nibble) (r : Byte) : (s.aluResult x r).reg x = r :=
  (s.aluResult_reg x r x).trans (if_pos rfl)

theorem State.aluResult_reg_of_ne (s : State) (r : Byte) {k : Nibble} (hk : k ≠ x) :
    (s.aluResult x r).reg k = s.reg k :=
  (s.aluResult_reg x r k).trans (if_neg hk)

/-- Settles O28: the result is NN itself. -/
theorem loadImmediateSetsRegister : Obligations.LoadImmediateSetsRegister := by
  unfold Obligations.LoadImmediateSetsRegister
  exact fun x nn s => ⟨_, rfl, s.aluResult_reg x nn, s.aluResult_frame x nn⟩

/-- Settles O29: the byte sum is the sum mod 256, and VF is one of the registers left alone unless X is 0xF. -/
theorem addImmediateWraps : Obligations.AddImmediateWraps := by
  unfold Obligations.AddImmediateWraps
  intro x nn s
  refine ⟨_, rfl, ?_, fun _ => s.aluResult_reg_of_ne _, s.aluResult_frame x _⟩
  rw [State.aluResult_reg_same, BitVec.toNat_add]

/-- A result that is an operation of the two operands bit by bit leaves it in VX and nothing else but pc. -/
theorem State.aluResult_bitwise {f : Bool → Bool → Bool} {a b : Byte}
    (hr : ∀ j, j < 8 → r.getLsbD j = f (a.getLsbD j) (b.getLsbD j)) :
    (∀ j, j < 8 → ((s.aluResult x r).reg x).getLsbD j = f (a.getLsbD j) (b.getLsbD j)) ∧
      (∀ k, k ≠ x → (s.aluResult x r).reg k = s.reg k) ∧
      s.aluResult x r = { s with v := (s.aluResult x r).v, pc := s.pc + 2 } := by
  rw [State.aluResult_reg_same]
  exact ⟨hr, fun _ => s.aluResult_reg_of_ne r, s.aluResult_frame x r⟩

/-- Settles O30: the copy, OR, AND and XOR of bytes act on each bit by itself. -/
theorem copyAndLogicSetRegister : Obligations.CopyAndLogicSetRegister := by
  unfold Obligations.CopyAndLogicSetRegister
  intro x y s i f hif
  simp only [List.mem_cons, Prod.mk.injEq, List.not_mem_nil, or_false] at hif
  rcases hif with ⟨rfl, rfl⟩ | ⟨rfl, rfl⟩ | ⟨rfl, rfl⟩ | ⟨rfl, rfl⟩
  · exact ⟨_, rfl, State.aluResult_bitwise (f := fun _ b => b) (a := s.reg x) fun _ _ => rfl⟩
  · exact ⟨_, rfl, State.aluResult_bitwise fun _ _ => BitVec.getLsbD_or⟩
  · exact ⟨_, rfl, State.aluResult_bitwise fun _ _ => BitVec.getLsbD_and⟩
  · exact ⟨_, rfl, State.aluResult_bitwise fun _ _ => BitVec.getLsbD_xor⟩

/-- The tick's random byte is that of the first known input, or the free value (R36, log 1). -/
theorem State.rnd_eq_getD (s : State) :
    s.rnd = (s.inputs.head?.map TickInput.rnd).getD (Config.rndAt s.tickIndex) := by
  unfold State.rnd
  cases s.inputs with
  | nil => rfl
  | cons => rfl

/-- Settles O33: the result is NN AND the tick's random byte. -/
theorem randomAndImmediate : Obligations.RandomAndImmediate := by
  unfold Obligations.RandomAndImmediate
  exact fun x nn s => ⟨_, s.rnd, rfl, s.rnd_eq_getD, s.aluResult_reg x _, s.aluResult_frame x _⟩

end Sys2Proof.Machine
end

section
/-! The index register and the memory it addresses: the BCD store, the register dump and the register load
(43_index_memory.md R170 to R177). -/

namespace Sys2Proof.Machine

variable {s : State} {x : Nibble}

/-! ### The new value of I (R25) -/

/-- A number that fits the width is the value of the bit vector it is written as. -/
theorem bitVec_ofNat_toNat {w n : Nat} (hn : n < 2 ^ w) : (BitVec.ofNat w n).toNat = n :=
  (BitVec.toNat_ofNat n w).trans (Nat.mod_eq_of_lt hn)

theorem pastIndexRange_iff (sum : Nat) : pastIndexRange sum = true ↔ sum > 0xFFF := decide_eq_true_iff

/-- Settles O34: the new I is NNN zero-extended. -/
theorem loadIndexSetsI : Obligations.LoadIndexSetsI := by
  unfold Obligations.LoadIndexSetsI
  exact fun nnn _ => ⟨addrWord nnn, addrWord_toNat nnn, rfl⟩

/-- Settles O36: VX * 5 is at most 1275, so that it fits the 16 bits of I. -/
theorem fontAddressIsFiveTimes : Obligations.FontAddressIsFiveTimes := by
  unfold Obligations.FontAddressIsFiveTimes
  intro x s
  have hx : (s.reg x).toNat < 256 := (s.reg x).isLt
  exact ⟨_, bitVec_ofNat_toNat (by omega), rfl⟩

theorem exec_addI_overflow (hsum : indexSum s.index (s.reg x) > 0xFFFF) :
    exec (.addI x) s = .next (s.raiseFault .indexOverflow) :=
  congrArg Host.Outcome.next (if_pos hsum)

theorem exec_addI (hsum : indexSum s.index (s.reg x) ≤ 0xFFFF) :
    exec (.addI x) s =
      .next ((s.writeIndex (BitVec.ofNat 16 (indexSum s.index (s.reg x)))).writeFlag
        (pastIndexRange (indexSum s.index (s.reg x)))).advance :=
  congrArg Host.Outcome.next (if_neg (by omega))

/-- Settles O35: a sum that fits 16 bits is the new I, and VF tells whether it is past 0xFFF; a greater one is the fault
of code 6. -/
theorem addIndexSetsFlag : Obligations.AddIndexSetsFlag := by
  unfold Obligations.AddIndexSetsFlag
  rintro x s _ rfl
  refine ⟨fun hover => ?_, fun hfits => ?_⟩
  · rw [exec_addI_overflow hover, State.raiseFault_eq_afterFault, FaultKind.code]
  · refine ⟨_, exec_addI hfits, bitVec_ofNat_toNat (Nat.lt_succ_of_le hfits), fun k => ?_, rfl⟩
    simp only [State.advance_reg, State.writeFlag_reg, State.writeIndex_reg, pastIndexRange_iff, indexSum]

/-! ### Access at I up to I + k (R57, R177) -/

/-- An access that reaches past the store is the fault of code 2 (R233). -/
theorem State.rangeCheck_past {k : Nat} (u : State) (hpast : s.index.toNat + k > 0xFFF) :
    (if s.pastStore k then s.raiseFault .memRange else u) = s.afterFault 2 :=
  if_pos ((s.pastStore_iff k).2 hpast)

/-- An access that lies in the store goes through. -/
theorem State.rangeCheck_inStore {k : Nat} (u : State) (hin : s.index.toNat + k ≤ 0xFFF) :
    (if s.pastStore k then s.raiseFault .memRange else u) = u :=
  if_neg (by rw [State.pastStore_iff]; omega)

theorem State.writeMem_byteAt_inside (s : State) (a : Nat) {bs : List Byte} {k : Nat} (hk : k < bs.length) :
    (s.writeMem a bs).byteAt (a + k) = bs[k] := by
  simp [hk]

theorem State.writeMem_byteAt_outside (s : State) {a c : Nat} {bs : List Byte} (hc : c < a ∨ a + bs.length ≤ c) :
    (s.writeMem a bs).byteAt c = s.byteAt c := by
  rw [State.writeMem_byteAt, dif_neg (by omega)]

/-! ### The BCD store -/

theorem exec_ldB_past (x : Nibble) (hpast : s.index.toNat + 2 > 0xFFF) : exec (.ldB x) s = .next (s.afterFault 2) :=
  congrArg Host.Outcome.next (State.rangeCheck_past _ hpast)

theorem exec_ldB (x : Nibble) (hin : s.index.toNat + 2 ≤ 0xFFF) :
    exec (.ldB x) s = .next (s.writeMem s.index.toNat (bcdDigits (s.reg x))).advance :=
  congrArg Host.Outcome.next (State.rangeCheck_inStore _ hin)

theorem bcdDigits_length (b : Byte) : (bcdDigits b).length = 3 := rfl

/-- The bytes that hold the digits of a byte are its hundreds, its tens and its ones, as numbers (R174, D13). -/
theorem State.writeMem_bcdDigits_toNat (s : State) (p : Nat) (b : Byte) :
    ((s.writeMem p (bcdDigits b)).byteAt p).toNat = b.toNat / 100 ∧
      ((s.writeMem p (bcdDigits b)).byteAt (p + 1)).toNat = b.toNat / 10 % 10 ∧
      ((s.writeMem p (bcdDigits b)).byteAt (p + 2)).toNat = b.toNat % 10 := by
  have hb : b.toNat < 256 := b.isLt
  have digit {k : Nat} (hk : k < 3) : (s.writeMem p (bcdDigits b)).byteAt (p + k) = (bcdDigits b)[k] :=
    s.writeMem_byteAt_inside p hk
  refine ⟨?_, ?_, ?_⟩
  · exact (congrArg BitVec.toNat (digit (k := 0) (by decide))).trans (bitVec_ofNat_toNat (by omega))
  · exact (congrArg BitVec.toNat (digit (k := 1) (by decide))).trans (bitVec_ofNat_toNat (by omega))
  · exact (congrArg BitVec.toNat (digit (k := 2) (by decide))).trans (bitVec_ofNat_toNat (by omega))

/-- Settles O37: the bytes at I, I + 1 and I + 2 hold the hundreds, the tens and the ones of VX, and these make up VX. -/
theorem bcdStoresDigits : Obligations.BcdStoresDigits := by
  unfold Obligations.BcdStoresDigits
  rintro x s _ _ rfl rfl
  refine ⟨exec_ldB_past x, fun hin => ⟨_, exec_ldB x hin, ?_⟩⟩
  simp only [State.advance_byteAt]
  obtain ⟨hundreds, tens, ones⟩ := s.writeMem_bcdDigits_toNat s.index.toNat (s.reg x)
  refine ⟨hundreds, by omega, by omega, by omega, fun c hc => ?_, rfl⟩
  exact s.writeMem_byteAt_outside (by rw [bcdDigits_length]; omega)

/-! ### The register dump and load -/

theorem exec_storeRegs_past (hpast : s.index.toNat + x.toNat > 0xFFF) :
    exec (.storeRegs x) s = .next (s.afterFault 2) :=
  congrArg Host.Outcome.next (State.rangeCheck_past _ hpast)

theorem exec_storeRegs (hin : s.index.toNat + x.toNat ≤ 0xFFF) :
    exec (.storeRegs x) s =
      .next ((s.writeMem s.index.toNat (s.regsUpTo x)).writeIndex
        (BitVec.ofNat 16 (s.index.toNat + x.toNat + 1))).advance :=
  congrArg Host.Outcome.next (State.rangeCheck_inStore _ hin)

/-- Settles O38: the dump writes the X + 1 bytes from I up, and I + X + 1 fits 16 bits. -/
theorem dumpStoresRegisters : Obligations.DumpStoresRegisters := by
  unfold Obligations.DumpStoresRegisters
  rintro x s _ rfl
  refine ⟨exec_storeRegs_past, fun hin => ?_⟩
  obtain ⟨t, ht, _, hbytes⟩ := exec_storeRegs_inStore hin
  cases (exec_storeRegs hin).symm.trans ht
  refine ⟨_, ht, hbytes, fun c hc => ?_, bitVec_ofNat_toNat (by omega), rfl⟩
  exact s.writeMem_byteAt_outside (by rw [State.regsUpTo_length]; omega)

theorem exec_loadRegs_past (hpast : s.index.toNat + x.toNat > 0xFFF) :
    exec (.loadRegs x) s = .next (s.afterFault 2) :=
  congrArg Host.Outcome.next (State.rangeCheck_past _ hpast)

theorem exec_loadRegs (hin : s.index.toNat + x.toNat ≤ 0xFFF) :
    exec (.loadRegs x) s =
      .next ((s.writeRegs (s.regsLoaded x s.index.toNat)).writeIndex
        (BitVec.ofNat 16 (s.index.toNat + x.toNat + 1))).advance :=
  congrArg Host.Outcome.next (State.rangeCheck_inStore _ hin)

/-- A loaded register: the byte in its place for V0..VX, the others as they are (R176). -/
theorem State.regsLoaded_getElem (s : State) (x : Nibble) (a : Nat) (k : Nibble) :
    (s.regsLoaded x a)[k.toNat]'k.isLt = if k.toNat ≤ x.toNat then s.byteAt (a + k.toNat) else s.reg k := by
  simp [State.regsLoaded, State.reg]

/-- Settles O39: the load writes the registers from the X + 1 bytes at I and up, and I + X + 1 fits 16 bits. -/
theorem loadFillsRegisters : Obligations.LoadFillsRegisters := by
  unfold Obligations.LoadFillsRegisters
  rintro x s _ rfl
  refine ⟨exec_loadRegs_past, fun hin => ⟨_, exec_loadRegs hin, fun k => ?_, bitVec_ofNat_toNat (by omega), rfl⟩⟩
  exact s.regsLoaded_getElem x _ k

/-- Settles O40: register k up to X comes back from the byte at I + k, where the dump put it. -/
theorem loadUndoesDump : Obligations.LoadUndoesDump := by
  unfold Obligations.LoadUndoesDump
  intro x s w hin
  obtain ⟨t, ht, _, hbytes⟩ := exec_storeRegs_inStore hin
  refine ⟨t, _, ht, exec_loadRegs hin, fun k => ?_⟩
  refine (State.regsLoaded_getElem { t with index := s.index, v := w } x s.index.toNat k).trans ?_
  by_cases hk : k.toNat ≤ x.toNat
  · rw [if_pos hk, if_pos hk]
    exact hbytes k hk
  · rw [if_neg hk, if_neg hk]
    rfl

end Sys2Proof.Machine
end

section
/-! The display: what 00E0 and DXYN leave in the framebuffer and in VF, from what the blitter turns over (44_display.md
R190 to R193). -/

namespace Sys2Proof.Machine

/-! ### What a draw tells of the pixels it turned over (R191, R193) -/

section
variable {fb0 : FrameBuffer} {P : BitVec 6 → BitVec 5 → Prop} {first second : Blit}

/-- A draw hits exactly when some pixel went from 1 to 0: a pixel outside P keeps its value, so that one is in P. -/
theorem TurnedOver.hit_iff (h : TurnedOver fb0 P first) :
    first.hit = true ↔ ∃ px py, fb0.pixel px py = true ∧ first.fb.pixel px py = false := by
  obtain ⟨inside, outside, hit⟩ := h
  rw [hit]
  refine exists_congr fun px => exists_congr fun py => ?_
  by_cases hP : P px py
  · simp [hP, inside px py hP]
  · simp [hP, outside px py hP]

/-- Turning the same pixels over a second time brings the first framebuffer back. -/
theorem TurnedOver.again_fb (h : TurnedOver fb0 P first) (h' : TurnedOver first.fb P second) : second.fb = fb0 := by
  obtain ⟨inside, outside, _⟩ := h
  obtain ⟨inside', outside', _⟩ := h'
  refine FrameBuffer.ext_pixel _ _ fun px py => ?_
  by_cases hP : P px py
  · rw [inside' px py hP, inside px py hP, Bool.not_not]
  · rw [outside' px py hP, outside px py hP]

/-- The second draw hits exactly when the first turned some pixel on: it turns off what the first turned on. -/
theorem TurnedOver.again_hit_iff (h : TurnedOver fb0 P first) (h' : TurnedOver first.fb P second) :
    second.hit = true ↔ ∃ px py, fb0.pixel px py = false ∧ first.fb.pixel px py = true := by
  rw [h'.hit_iff, h.again_fb h']
  simp only [and_comm]

end

/-! ### The execute phase -/

/-- Settles O42: the framebuffer 00E0 writes is the blank one, whose pixels are 0. -/
theorem clearScreenZeroesPixels : Obligations.ClearScreenZeroesPixels := by
  unfold Obligations.ClearScreenZeroesPixels
  exact fun s => ⟨_, rfl, FrameBuffer.pixel_blank, rfl⟩

/-- The state after a draw that does not fault: the blitter's framebuffer, its hit in VF, pc at the next word. -/
def State.afterBlit (s : State) (d : Blit) : State := ((s.writeFB d.fb).writeFlag d.hit).advance

section
variable {s : State} {x y n : Nibble}

theorem State.afterBlit_frame (s : State) (d : Blit) :
    s.afterBlit d = { s with v := (s.afterBlit d).v, fb := (s.afterBlit d).fb, pc := s.pc + 2 } := rfl

@[simp] theorem State.afterBlit_reg (s : State) (d : Blit) (k : Nibble) :
    (s.afterBlit d).reg k = if k = 0xF then (if d.hit then 1 else 0) else s.reg k := by
  simp [State.afterBlit]

theorem State.afterBlit_VF_eq_one_iff (s : State) (d : Blit) : (s.afterBlit d).reg 0xF = 1 ↔ d.hit = true := by
  cases h : d.hit <;> simp [h]

theorem State.afterBlit_VF_eq_zero_iff (s : State) (d : Blit) : (s.afterBlit d).reg 0xF = 0 ↔ ¬ d.hit = true := by
  cases h : d.hit <;> simp [h]

/-- The range check of a draw: a sprite of at least one row whose last byte is past the store (R191, D9). -/
theorem drawCheck_iff :
    (n.toNat > 0 && s.pastStore (n.toNat - 1)) = true ↔ 0 < n.toNat ∧ s.index.toNat + n.toNat - 1 > 0xFFF := by
  rw [Bool.and_eq_true, decide_eq_true_iff, State.pastStore_iff]
  omega

theorem exec_drw_past (hpast : 0 < n.toNat ∧ s.index.toNat + n.toNat - 1 > 0xFFF) :
    exec (.drw x y n) s = .next (s.afterFault 2) :=
  congrArg Host.Outcome.next (if_pos (drawCheck_iff.2 hpast))

theorem exec_drw (hin : n.toNat = 0 ∨ s.index.toNat + n.toNat - 1 ≤ 0xFFF) :
    exec (.drw x y n) s = .next (s.afterBlit (s.drawSprite (s.reg x) (s.reg y) n)) :=
  congrArg Host.Outcome.next (if_neg (by rw [drawCheck_iff]; omega))

/-- A draw turns over the same pixels in two states with the same memory and the same I (R193). -/
theorem State.drawSprite_turnedOver_of_eq {t : State} {x0 y0 : Byte} (hmem : t.mem = s.mem)
    (hindex : t.index = s.index) : TurnedOver t.fb (SpriteCovers s x0 y0 n) (t.drawSprite x0 y0 n) := by
  refine (t.drawSprite_turnedOver x0 y0 n).congr fun px py => ?_
  simp only [SpriteCovers, State.byteAt, hmem, hindex]

end

/-- Settles O43: the blitter turns over the covered pixels, and VF is its hit, which says that a pixel went from 1 to
0. -/
theorem drawTurnsOverCoveredPixels : Obligations.DrawTurnsOverCoveredPixels := by
  unfold Obligations.DrawTurnsOverCoveredPixels
  intro x y n s
  have turned := s.drawSprite_turnedOver (s.reg x) (s.reg y) n
  have hit := turned.hit_iff
  obtain ⟨inside, outside, _⟩ := turned
  refine ⟨exec_drw_past, fun hin => ⟨_, exec_drw hin, inside, outside, ?_, ?_, ?_, s.afterBlit_frame _⟩⟩
  · rw [State.afterBlit_VF_eq_one_iff]
    exact hit.2
  · rw [State.afterBlit_VF_eq_zero_iff, hit]
    rintro kept ⟨px, py, was, is⟩
    exact Bool.false_ne_true (is.symm.trans (kept px py was))
  · intro k hk
    rw [State.afterBlit_reg, if_neg hk]

/-- Settles O44: with the registers put back the second draw covers the same pixels as the first, so that it turns
them over once more. -/
theorem drawTwiceRestores : Obligations.DrawTwiceRestores := by
  unfold Obligations.DrawTwiceRestores
  intro x y n s hin
  have first := s.drawSprite_turnedOver (s.reg x) (s.reg y) n
  have second := State.drawSprite_turnedOver_of_eq (s := s) (n := n) (x0 := s.reg x) (y0 := s.reg y)
    (t := { s.afterBlit (s.drawSprite (s.reg x) (s.reg y) n) with v := s.v }) rfl rfl
  refine ⟨_, _, exec_drw hin, exec_drw hin, first.again_fb second, ?_⟩
  rw [State.afterBlit_VF_eq_one_iff]
  exact first.again_hit_iff second

end Sys2Proof.Machine
end

section
/-! The timers and the keys: the timer instructions, the key skips and the key poll, each with the fields it writes
(45_timers_keys.md R210 to R216). -/

namespace Sys2Proof.Machine

variable {s : State}

/-! ### The timer instructions -/

/-- Settles O45: FX07 is a result DT without a flag, and FX15 and FX18 each write one timer and pc. -/
theorem timerInstructionsMoveBytes : Obligations.TimerInstructionsMoveBytes := by
  unfold Obligations.TimerInstructionsMoveBytes
  exact fun x s => ⟨⟨_, rfl, s.aluResult_reg x s.dt, s.aluResult_frame x s.dt⟩, rfl, rfl⟩

/-! ### The key skips (R213, R214, R216) -/

/-- The tick's key snapshot is that of the first known input, or the free value (R36, log 1). -/
theorem State.keys_eq_getD (s : State) :
    s.keys = (s.inputs.head?.map TickInput.keys).getD (Config.keysAt s.tickIndex) := by
  unfold State.keys
  cases s.inputs with
  | nil => rfl
  | cons => rfl

/-- A key number above 15 is the fault of code 5 (R216, D16). -/
theorem State.keyTest_outOfRange {key : Byte} (hkey : key.toNat > 15) (wanted : Bool) :
    s.keyTest key wanted = s.afterFault 5 :=
  if_pos hkey

/-- The test of one of the sixteen keys skips exactly where the key's bit is the wanted one. -/
theorem State.keyTest_inRange {key : Byte} (hkey : key.toNat ≤ 15) (wanted : Bool) :
    s.keyTest key wanted =
      { s with pc := if s.keys.getLsbD key.toNat = wanted then s.pc + 4 else s.pc + 2 } :=
  (if_neg (Nat.not_lt.2 hkey)).trans (s.skipIf_eq_ite beq_iff_eq)

theorem exec_skp (x : Nibble) (s : State) : exec (.skp x) s = .next (s.keyTest (s.reg x) true) := rfl

theorem exec_sknp (x : Nibble) (s : State) : exec (.sknp x) s = .next (s.keyTest (s.reg x) false) := rfl

/-- Settles O46: both are tests of the key VX names, EX9E for a pressed key and EXA1 for one that is not. -/
theorem keySkipsTestOneKey : Obligations.KeySkipsTestOneKey := by
  unfold Obligations.KeySkipsTestOneKey
  rintro x s _ rfl
  rw [← s.keys_eq_getD, exec_skp, exec_sknp]
  refine ⟨fun hout => ?_, fun hin => ⟨?_, ?_⟩⟩
  · rw [State.keyTest_outOfRange hout, State.keyTest_outOfRange hout]
    exact ⟨rfl, rfl⟩
  · rw [State.keyTest_inRange hin]
  · rw [State.keyTest_inRange hin]
    simp only [← Bool.not_eq_true, ite_not]

/-! ### The key poll (R215) -/

theorem exec_ldVxK_none (x : Nibble) (hnone : s.keys = 0) : exec (.ldVxK x) s = .next s :=
  congrArg Host.Outcome.next (if_pos hnone)

theorem exec_ldVxK (x : Nibble) (hsome : s.keys ≠ 0) :
    exec (.ldVxK x) s = .next (s.aluResult x ((selectKey s.params.keySelect s.keys).setWidth 8)) :=
  congrArg Host.Outcome.next (if_neg hsome)

/-- Under the default KEY_SELECT no key below the selected one is pressed (D15). -/
theorem selectKey_lowest {p : KeySelect} {keys : Word} (hsome : keys ≠ 0) (hp : p = .lowestPressed) (j : Nat)
    (hj : j < (selectKey p keys).toNat) : keyPressed keys j = false := by
  subst hp
  exact (lowestKey_spec keys hsome).2 j hj

/-- A result that is a key's number is that number in VX and leaves the other registers alone. -/
theorem State.aluResult_key_toNat (s : State) (x key k : Nibble) :
    ((s.aluResult x (key.setWidth 8)).reg k).toNat = if k = x then key.toNat else (s.reg k).toNat := by
  rw [State.aluResult_reg, apply_ite BitVec.toNat, BitVec.toNat_setWidth_of_le (by decide)]

/-- Settles O47: with no key pressed the poll leaves the state as it is; else its result is the number of the key that
KEY_SELECT picks, which is pressed. -/
theorem keyPollTakesPressedKey : Obligations.KeyPollTakesPressedKey := by
  unfold Obligations.KeyPollTakesPressedKey
  intro x s
  refine ⟨exec_ldVxK_none x, fun hsome => ?_⟩
  have hpressed := selectKey_pressed s.params.keySelect s.keys hsome
  exact ⟨_, (selectKey s.params.keySelect s.keys).toNat, exec_ldVxK x hsome, BitVec.isLt _, hpressed,
    selectKey_lowest hsome, s.aluResult_key_toNat x _, s.aluResult_frame x _⟩

end Sys2Proof.Machine
end

section
/-! The faults of the block: which state a tick that raises one leaves, and on which causes an instruction raises which
(60_exceptions.md R231, R232, R237). -/

namespace Sys2Proof.Machine

variable {s t u : State} {i : Instr}

/-! ### A tick that raises a fault (R232) -/

/-- Settles O19: of the cases of a step a fault is raised by the fetch fault and by a fault of the execute phase, which
abandons phases 4 to 6; an execute phase without a fault leaves FAULTED as it was. -/
theorem faultsArePrecise : Obligations.FaultsArePrecise := by
  unfold Obligations.FaultsArePrecise
  intro s t h hnf hf
  rcases step_cases s with ⟨_, h1⟩ | ⟨_, hf', _⟩ | ⟨_, _, _, h1⟩ | ⟨hb, _, hp, _⟩
  · cases h1.symm.trans h
  · exact absurd hf' (by simp [hnf])
  · cases h1.symm.trans h
    exact ⟨.fetchRange, rfl⟩
  · obtain ⟨u, hu⟩ := exec_next s.current s
    cases ((step_of_canExecute ⟨hb, hnf, hp⟩).trans (runInstr_of_exec _ _ _ hu)).symm.trans h
    rcases (exec_effect hu).fault_or_kept with ⟨k, rfl⟩ | ⟨hkept, _⟩
    · rw [State.afterExecute_raiseFault]
      exact ⟨k, rfl⟩
    · rw [State.closeTick_afterExecute_faulted, hkept] at hf
      exact absurd hf (by simp [hnf])

/-! ### The fault table (R231, R237) -/

/-- The fault of an instruction in a state, if it has one: the rows of the fault table that belong to an instruction. -/
def faultOf (s : State) : Instr → Option FaultKind
  | .ret => if s.sp.val = 0 then some .stackUnderflow else none
  | .call _ => if s.sp.val = 64 then some .stackOverflow else none
  | .skp x | .sknp x => if (s.reg x).toNat > 15 then some .keyRange else none
  | .addI x => if s.index.toNat + (s.reg x).toNat > 0xFFFF then some .indexOverflow else none
  | .ldB _ => if s.index.toNat + 2 > 0xFFF then some .memRange else none
  | .storeRegs x | .loadRegs x => if s.index.toNat + x.toNat > 0xFFF then some .memRange else none
  | .drw _ _ n => if 0 < n.toNat ∧ s.index.toNat + n.toNat - 1 > 0xFFF then some .memRange else none
  | _ => none

/-- The state t is the one that the given fault leaves of s, or, with none given, is not faulted. -/
def FaultedBy (s t : State) : Option FaultKind → Prop
  | some k => t = s.raiseFault k
  | none => t.faulted = false

/-- A check that faults, in the form the model writes it and in that of the table. -/
theorem FaultedBy.guarded {p q : Prop} [Decidable p] [Decidable q] {k : FaultKind} (hpq : p ↔ q)
    (hu : u.faulted = false) :
    FaultedBy s (if p then s.raiseFault k else u) (if q then some k else none) := by
  by_cases hq : q
  · rw [if_pos hq, if_pos (hpq.2 hq)]
    exact rfl
  · rw [if_neg hq, if_neg (mt hpq.1 hq)]
    exact hu

/-- The execute phase raises the fault of its instruction, or none. -/
theorem exec_faultedBy (h : exec i s = .next t) (hnf : s.faulted = false) : FaultedBy s t (faultOf s i) := by
  cases i with
  | ret | skp | sknp | addI => cases h; exact .guarded Iff.rfl hnf
  | ldB | storeRegs | loadRegs => cases h; exact .guarded (s.pastStore_iff _) hnf
  | drw => cases h; exact .guarded drawCheck_iff hnf
  | call nnn =>
    by_cases hfull : s.sp.val = 64
    · cases (exec_call_full nnn hfull).symm.trans h
      rw [faultOf, if_pos hfull]
      exact rfl
    · cases (exec_call nnn (by omega)).symm.trans h
      rw [faultOf, if_neg hfull]
      exact hnf
  | ldVxK =>
    cases h
    split
    · exact hnf
    · exact hnf
  | _ => cases h; exact hnf

theorem FaultKind.code_inj (j k : FaultKind) : j.code = k.code ↔ j = k := by
  cases j <;> cases k <;> decide

/-- FAULTED and FAULT_CODE tell the fault. -/
theorem FaultedBy.code_iff {o : Option FaultKind} (h : FaultedBy s t o) (k : FaultKind) :
    t.faulted = true ∧ t.faultCode = k.code ↔ o = some k := by
  cases o with
  | none =>
    have hnf : t.faulted = false := h
    simp [hnf]
  | some j =>
    obtain rfl : t = s.raiseFault j := h
    exact (and_iff_right rfl).trans ((j.code_inj k).trans Option.some_inj.symm)

/-- A state that is faulted was left so by the given fault. -/
theorem FaultedBy.exists_of_faulted {o : Option FaultKind} (h : FaultedBy s t o) (hf : t.faulted = true) :
    ∃ k, o = some k ∧ t.faultCode = k.code := by
  cases o with
  | none => exact absurd hf (by simp [show t.faulted = false from h])
  | some k => exact ⟨k, rfl, congrArg State.faultCode h⟩

/-! The table read by its fault kinds. -/

theorem faultOf_eq_memRange_iff : faultOf s i = some .memRange ↔
    (∃ x, i = .ldB x ∧ s.index.toNat + 2 > 0xFFF) ∨
    (∃ x, (i = .storeRegs x ∨ i = .loadRegs x) ∧ s.index.toNat + x.toNat > 0xFFF) ∨
    (∃ x y n, i = .drw x y n ∧ 0 < n.toNat ∧ s.index.toNat + n.toNat - 1 > 0xFFF) := by
  cases i with
  | ldB | drw => simp [faultOf]; omega
  | storeRegs | loadRegs => simp [faultOf]
  | _ => simp [faultOf]

theorem faultOf_eq_stackOverflow_iff : faultOf s i = some .stackOverflow ↔ ∃ nnn, i = .call nnn ∧ s.sp.val = 64 := by
  cases i with
  | call => simp [faultOf]
  | _ => simp [faultOf]

theorem faultOf_eq_stackUnderflow_iff : faultOf s i = some .stackUnderflow ↔ i = .ret ∧ s.sp.val = 0 := by
  cases i with
  | ret => simp [faultOf]
  | _ => simp [faultOf]

theorem faultOf_eq_keyRange_iff :
    faultOf s i = some .keyRange ↔ ∃ x, (i = .skp x ∨ i = .sknp x) ∧ (s.reg x).toNat > 15 := by
  cases i with
  | skp | sknp => simp [faultOf]
  | _ => simp [faultOf]

theorem faultOf_eq_indexOverflow_iff :
    faultOf s i = some .indexOverflow ↔ ∃ x, i = .addI x ∧ s.index.toNat + (s.reg x).toNat > 0xFFFF := by
  cases i with
  | addI => simp [faultOf]
  | _ => simp [faultOf]

/-- The fetch fault is no instruction's (R234). -/
theorem faultOf_ne_fetchRange : faultOf s i ≠ some .fetchRange := by
  cases i with
  | ret | call | skp | sknp | addI | ldB | storeRegs | loadRegs | drw => simp [faultOf]
  | _ => simp [faultOf]

/-- An instruction's fault has a code from 2 up: code 1 is the fetch fault's. -/
theorem faultOf_code_range {k : FaultKind} (hk : faultOf s i = some k) : 2 ≤ k.code.toNat ∧ k.code.toNat ≤ 6 := by
  cases k with
  | fetchRange => exact absurd hk faultOf_ne_fetchRange
  | _ => decide

/-- Settles O20: the execute phase leaves the fault of its instruction, which FAULT_CODE tells, and the table says which
instruction has which. -/
theorem faultsExactlyOnTheirCauses : Obligations.FaultsExactlyOnTheirCauses := by
  unfold Obligations.FaultsExactlyOnTheirCauses
  intro i s hnf
  obtain ⟨t, ht⟩ := exec_next i s
  have fault := exec_faultedBy ht hnf
  refine ⟨t, ht, (fault.code_iff .memRange).trans faultOf_eq_memRange_iff,
    (fault.code_iff .stackOverflow).trans faultOf_eq_stackOverflow_iff,
    (fault.code_iff .stackUnderflow).trans faultOf_eq_stackUnderflow_iff,
    (fault.code_iff .keyRange).trans faultOf_eq_keyRange_iff,
    (fault.code_iff .indexOverflow).trans faultOf_eq_indexOverflow_iff, fun hf => ?_⟩
  obtain ⟨k, hk, hcode⟩ := fault.exists_of_faulted hf
  rw [hcode]
  exact faultOf_code_range hk

end Sys2Proof.Machine
end

section
/-! The host's inputs of a tick: which instructions the key snapshot and the random byte reach (60_exceptions.md R244,
log 1). -/

namespace Sys2Proof.Machine

variable {s t u : State} {l : List TickInput} {n : Nat} {i : Instr}

/-- The state with other inputs of the host: other known inputs and another tick number, the index of the free ones
(log 1). -/
def State.withInputs (s : State) (l : List TickInput) (n : Nat) : State := { s with inputs := l, tickIndex := n }

/-- A check that faults does the same under other inputs, where what is behind it does. -/
theorem State.guarded_withInputs {v : State} {p : Prop} [Decidable p] {k : FaultKind} (hv : v = u.withInputs l n) :
    (if p then (s.withInputs l n).raiseFault k else v) = (if p then s.raiseFault k else u).withInputs l n := by
  split
  · rfl
  · exact hv

/-- A key test does the same under other inputs with the same key snapshot. -/
theorem State.keyTest_withInputs (hkeys : (s.withInputs l n).keys = s.keys) (key : Byte) (wanted : Bool) :
    (s.withInputs l n).keyTest key wanted = (s.keyTest key wanted).withInputs l n := by
  rw [State.keyTest, hkeys]
  exact State.guarded_withInputs rfl

/-- The key poll does the same under other inputs with the same key snapshot. -/
theorem exec_ldVxK_withInputs {x : Nibble} (hkeys : (s.withInputs l n).keys = s.keys)
    (h : exec (.ldVxK x) s = .next t) : exec (.ldVxK x) (s.withInputs l n) = .next (t.withInputs l n) := by
  by_cases hnone : s.keys = 0
  · cases (exec_ldVxK_none x hnone).symm.trans h
    exact exec_ldVxK_none x (hkeys.trans hnone)
  · cases (exec_ldVxK x hnone).symm.trans h
    rw [exec_ldVxK x (hkeys.symm ▸ hnone), hkeys]
    rfl

theorem exec_call_withInputs {nnn : Addr12} (h : exec (.call nnn) s = .next t) :
    exec (.call nnn) (s.withInputs l n) = .next (t.withInputs l n) := by
  by_cases hfull : s.sp.val = 64
  · cases (exec_call_full nnn hfull).symm.trans h
    exact exec_call_full nnn hfull
  · have hsp : s.sp.val < 64 := by omega
    cases (exec_call nnn hsp).symm.trans h
    exact exec_call (s := s.withInputs l n) nnn hsp

/-- Settles O53: beside the key tests, the key poll and CXNN no instruction reads an input, and these read the key
snapshot or the random byte alone. -/
theorem inputsReachOnlyTheirInstructions : Obligations.InputsReachOnlyTheirInstructions := by
  unfold Obligations.InputsReachOnlyTheirInstructions
  intro i s t l n h hkeys hrnd
  change exec i (s.withInputs l n) = .next (t.withInputs l n)
  cases i with
  | skp x =>
    cases h
    exact congrArg Host.Outcome.next (State.keyTest_withInputs (hkeys.resolve_left fun hne => (hne x).1 rfl) _ _)
  | sknp x =>
    cases h
    exact congrArg Host.Outcome.next (State.keyTest_withInputs (hkeys.resolve_left fun hne => (hne x).2.1 rfl) _ _)
  | ldVxK x => exact exec_ldVxK_withInputs (hkeys.resolve_left fun hne => (hne x).2.2 rfl) h
  | rnd x nn =>
    have hsame : (s.withInputs l n).rnd = s.rnd := hrnd.resolve_left fun hne => hne x nn rfl
    cases h
    rw [exec, execRnd, hsame]
    rfl
  | call => exact exec_call_withInputs h
  | ret | drw | addI | ldB | storeRegs | loadRegs =>
    cases h
    exact congrArg Host.Outcome.next (State.guarded_withInputs rfl)
  | _ => cases h; rfl

end Sys2Proof.Machine
end

section
/-! The block after a reset (70_reset_and_hazards.md R250): each element at its construction value, and the invariant. -/

namespace Sys2Proof.Machine

theorem State.reset_stack_getElem (k : Fin 64) : State.reset.stack[k] = 0 := by
  simp [State.reset]

/-- Construction writes FONT at 0x000..0x04F and leaves 0 in every other byte (R55, R58). -/
theorem State.construct_byteAt (p : Params) (a : Nat) :
    (State.construct p).byteAt a = if h : a < 80 then p.font[a] else 0 := by
  refine (Memory.read_writeBytes [] 0 p.font.toList a).trans ?_
  by_cases ha : a < 80
  · simp [ha]
  · simp [ha, Memory.read, unlisted]

/-- The default FONT is what unlisted addresses read as, so its construction lists no byte (log 4). -/
theorem State.construct_default_mem : (State.construct defaultParams).mem = [] :=
  Memory.eq_of_read _ [] (Memory.wf_writeBytes [] 0 defaultFont.toList rfl (by simp)) rfl
    (State.construct_byteAt defaultParams)

theorem State.construct_default : State.construct defaultParams = State.reset := by
  have hframe : State.construct defaultParams =
      { State.reset with mem := (State.construct defaultParams).mem } := rfl
  rw [hframe, State.construct_default_mem]
  rfl

/-- A reset of the reset state constructs it again (D19). -/
theorem hostReset_reset : hostReset State.reset = State.reset := by
  have hagain : hostReset State.reset =
      { State.construct defaultParams with inputs := [], tickIndex := 0 } := rfl
  rw [hagain, State.construct_default]
  rfl

theorem hostReset_byteAt (s : State) (a : Nat) :
    (hostReset s).byteAt a = if h : a < 80 then s.params.font[a] else 0 :=
  State.construct_byteAt s.params a

/-- A reset leaves every pixel 0 (R33, D18). -/
theorem hostReset_pixel (s : State) (x : BitVec 6) (y : BitVec 5) : framebufferPort (hostReset s) x y = false :=
  FrameBuffer.pixel_blank x y

/-- Settles O6: a reset takes every element but the memory from the construction state, and its memory holds the
machine's FONT and 0. -/
theorem resetRebuildsTheRest : Obligations.ResetRebuildsTheRest := by
  unfold Obligations.ResetRebuildsTheRest
  refine ⟨hostReset_reset, ?_⟩
  rintro s _ rfl
  exact ⟨rfl, State.reset_stack_getElem, rfl, rfl, hostReset_pixel s, fun a _ => hostReset_byteAt s a,
    rfl, rfl, rfl, rfl, rfl, rfl, rfl, hostReset_params s⟩

/-- Settles O57: the reset state lists no byte, is not faulted, reports no Invalid word, and has pc at 0x200 and a
stack of zeros. -/
theorem resetHasInvariant : Obligations.ResetHasInvariant := by
  unfold Obligations.ResetHasInvariant
  have hfault : State.reset.FaultCoherent := ⟨fun _ => rfl, nofun⟩
  have hreport : State.reset.ReportCoherent := ⟨fun _ => rfl, nofun⟩
  have hpc : State.reset.PcBounded := ⟨by decide, fun k => by rw [State.reset_stack_getElem]; decide⟩
  exact ⟨Memory.wf_reset, hfault, hreport, hpc⟩

end Sys2Proof.Machine
end

section
/-! Runs of a started block: every number of ticks completes (70_reset_and_hazards.md R256, log 9). -/

namespace Sys2Proof.Machine

variable {s t : State}

/-- Every tick uses up one input, is counted, and leaves the block in the phase ticking (logs 1, 6). -/
theorem step_closes_tick (h : step s = .next t) :
    t.boot = .ticking ∧ t.inputs = s.inputs.tail ∧ t.tickIndex = s.tickIndex + 1 := by
  rcases step_cases s with ⟨_, h1⟩ | ⟨_, _, h1⟩ | ⟨_, _, _, h1⟩ | ⟨_, _, _, h1⟩
  · cases h1.symm.trans h
  · cases h1.symm.trans h
    exact ⟨rfl, rfl, rfl⟩
  · cases h1.symm.trans h
    exact ⟨rfl, rfl, rfl⟩
  · obtain ⟨u, hu⟩ := exec_next s.current s
    obtain ⟨_, _, hinputs, hindex⟩ := exec_frame _ _ _ hu
    cases (h1.trans (runInstr_of_exec s.current s u hu)).symm.trans h
    rw [State.afterExecute_frame, ← hinputs, ← hindex]
    exact ⟨rfl, rfl, rfl⟩

/-- A run goes on from what its first step answers. -/
theorem run_succ_of_step {M : Host.Core} {s t : M.State} (h : M.step s = .next t) (n : Nat) :
    M.run (n + 1) s = M.run n t := by
  rw [Host.Core.run, h]

/-- A started block completes every number of ticks: each step answers a started block again. -/
theorem core_run_of_started (n : Nat) (hb : s.boot ≠ .loadRefused) :
    ∃ t, Host.Core.run core n s = .next t ∧ t.tickIndex = s.tickIndex + n ∧ t.inputs = s.inputs.drop n := by
  induction n generalizing s with
  | zero => exact ⟨s, rfl, rfl, rfl⟩
  | succ n ih =>
    obtain ⟨u, hu⟩ := step_next_of_started hb
    obtain ⟨hboot, hinputs, hindex⟩ := step_closes_tick hu
    obtain ⟨t, hrun, htIndex, htInputs⟩ := ih (s := u) (by simp [hboot])
    refine ⟨t, (run_succ_of_step (M := core) hu n).trans hrun, ?_, ?_⟩
    · rw [htIndex, hindex]
      omega
    · rw [htInputs, hinputs, List.drop_tail]

/-- Settles O16, by induction on the number of ticks. -/
theorem startedBlockNeverStops : Obligations.StartedBlockNeverStops := by
  unfold Obligations.StartedBlockNeverStops
  exact fun _ hb n => core_run_of_started n hb

end Sys2Proof.Machine
end
